-- ==== Sys2Proof/Word.lean ====
section
/-!
DEFINITION. The words of the machine: 64-bit scalar registers, 512-bit vector registers, 8-bit bytes (R7, R203, R252).
-/
namespace Sys2Proof

abbrev Word := BitVec 64
abbrev VWord := BitVec 512
abbrev Byte := BitVec 8

end Sys2Proof
end

