-- ==== Sys2Proof/Machine/Bits.lean ====
section
/-!
DEFINITION. Bit fields, sign extension and byte order (R8, R203): numbers are read and written least significant byte
first.
-/
namespace Sys2Proof.Machine

/-- Bits [hi:lo] of a 64-bit value, as a number (`field`). -/
def fieldW (v : Word) (hi lo : Nat) : Nat := v.toNat / 2 ^ lo % 2 ^ (hi - lo + 1)

/-- Bits [hi:lo] of a number. -/
def fieldN (v hi lo : Nat) : Nat := v / 2 ^ lo % 2 ^ (hi - lo + 1)

/-- Bit `i` of a number. -/
def bitN (v i : Nat) : Bool := v / 2 ^ i % 2 == 1

/-- A Bool as 0 or 1. -/
def b2n (b : Bool) : Nat := if b then 1 else 0

/-- The 64-bit word of a number, modulo 2^64. -/
def w64 (n : Nat) : Word := BitVec.ofNat 64 n

/-- The 64-bit word of an integer, modulo 2^64. -/
def i64 (n : Int) : Word := BitVec.ofInt 64 n

/-- A number of `n` bits read as sint(n) (`sext`). -/
def sx (n v : Nat) : Int := if v % 2 ^ n < 2 ^ (n - 1) then (v % 2 ^ n : Nat) else (v % 2 ^ n : Nat) - (2 ^ n : Nat)

/-- An integer modulo 2^n. -/
def um (n : Nat) (v : Int) : Nat := (v % (2 ^ n : Nat)).toNat

/-- The little-endian number of a list of bytes. -/
def leNat : List Byte → Nat
  | [] => 0
  | b :: t => b.toNat + 256 * leNat t

/-- The `n` bytes of a number, least significant first. -/
def leBytes : Nat → Nat → List Byte
  | 0, _ => []
  | n + 1, v => BitVec.ofNat 8 v :: leBytes n (v / 256)

/-- Clamp an integer to [lo, hi] (`sat` for integer types, R171). -/
def clampI (lo hi x : Int) : Int := if x < lo then lo else if hi < x then hi else x

/-- sat(x, sint(n)) and sat(x, uint(n)). -/
def satS (n : Nat) (x : Int) : Int := clampI (-(2 ^ (n - 1) : Nat)) ((2 ^ (n - 1) : Nat) - 1) x
def satU (n : Nat) (x : Int) : Int := clampI 0 ((2 ^ n : Nat) - 1) x

/-- ⌈a / b⌉. -/
def ceilDiv (a b : Nat) : Nat := (a + b - 1) / b

/-- The number of bits of a number: 0 for 0, else 1 + floor(log2). -/
def bitLen (n : Nat) : Nat := if n = 0 then 0 else n.log2 + 1

/-- The number of 1 bits among the lowest `n` bits. -/
def popcount : Nat → Nat → Nat
  | 0, _ => 0
  | n + 1, v => v % 2 + popcount n (v / 2)

end Sys2Proof.Machine
end

