-- ==== Sys2Proof/Machine/Flags.lean ====
section
/-!
DEFINITION. Number formats, exact values, the one place where each rounding happens, and the exception flags it raises
(spec/06). A value is exact: NaN, an infinity, or ± m × 2^e. Rounding returns the code, the flags of SYS.NUMST (bit 0 NV,
1 DZ, 2 OF, 3 UF, 4 NX) and the count for SYS.FTZCNT.
-/
namespace Sys2Proof.Machine

/-- An exact value: `fin neg m e` is (−1)^neg × m × 2^e; m = 0 is a zero with its sign (R162 to R165). -/
inductive Val where
  | nan
  | inf (neg : Bool)
  | fin (neg : Bool) (m : Nat) (e : Int)
  deriving DecidableEq, Repr

def NV : Nat := 1
def DZ : Nat := 2
def OF : Nat := 4
def UF : Nat := 8
def NX : Nat := 16

/-- What a rounding gives: the code, its flags, its flush count. -/
structure Rnd where
  code : Nat
  fl : Nat
  ftz : Nat
  deriving DecidableEq, Repr

/-- A floating format of Table 6-2: exponent and fraction widths, bias, the code of the largest finite value, the codes
of +∞ and of the canonical NaN where the format has them. CHALK8 is `tapered`. -/
structure Fmt where
  ew : Nat
  mw : Nat
  bias : Nat
  maxCode : Nat
  inf : Option Nat
  nan : Option Nat
  tapered : Bool
  deriving DecidableEq, Repr

def FP4 : Fmt := ⟨2, 1, 1, 0x7, none, none, false⟩
def FP6A : Fmt := ⟨3, 2, 3, 0x1F, none, none, false⟩
def FP6B : Fmt := ⟨2, 3, 1, 0x1F, none, none, false⟩
def E4M3 : Fmt := ⟨4, 3, 7, 0x7E, none, some 0x7F, false⟩
def E5M2 : Fmt := ⟨5, 2, 15, 0x7B, some 0x7C, some 0x7E, false⟩
def BF16 : Fmt := ⟨8, 7, 127, 0x7F7F, some 0x7F80, some 0x7FC0, false⟩
def FP16 : Fmt := ⟨5, 10, 15, 0x7BFF, some 0x7C00, some 0x7E00, false⟩
def TF19 : Fmt := ⟨7, 11, 63, 0x3F7FF, some 0x3F800, some 0x3FC00, false⟩
def FP32 : Fmt := ⟨8, 23, 127, 0x7F7FFFFF, some 0x7F800000, some 0x7FC00000, false⟩
def FP56 : Fmt := ⟨11, 44, 1023, 0x7FEFFFFFFFFFFF, some 0x7FF00000000000, some 0x7FF80000000000, false⟩
def CHALK8 : Fmt := ⟨0, 7, 0, 0x03, none, some 0x80, true⟩

/-- The bits of a code: sign, exponent and fraction. -/
def Fmt.width (f : Fmt) : Nat := f.ew + f.mw + 1

/-! ## Decoding (R163 to R166) -/

/-- Table 6-3: the exponent of CHALK8 magnitude bits with k leading zeros and selector x, plus 15. -/
def chalkExp (k x : Nat) : Nat :=
  (match k with
    | 0 => [14, 15]
    | 1 => [12, 13, 16, 17]
    | 2 => [8, 9, 10, 11, 18, 19, 20, 21]
    | 3 => [4, 5, 6, 7, 22, 23, 24, 25]
    | 4 => [2, 3, 26, 27]
    | 5 => [1, 28]
    | _ => [0])[x]?.getD 0

/-- The magnitude of CHALK8 magnitude bits, in units of 2^−20 (R166). -/
def chalkMag (m : Nat) : Nat :=
  if m = 0 then 0
  else
    let k := 7 - bitLen m
    let rest := m % 2 ^ (6 - k)
    let xw := [1, 2, 3, 3, 2, 1, 0][k]?.getD 0
    let fw := 6 - k - xw
    (2 ^ fw + rest % 2 ^ fw) * 2 ^ (chalkExp k (rest / 2 ^ fw) + 5 - fw)

/-- decode(F, b). Every NaN code is the same NaN (R165). -/
def Fmt.decode (f : Fmt) (b : Nat) : Val :=
  if f.tapered then
    if b % 256 = 0 then .fin false 0 0
    else if b % 256 = 0x80 then .nan
    else .fin (bitN b 7) (chalkMag (b % 128)) (-20)
  else
    let neg := bitN b (f.ew + f.mw)
    let mag := b % 2 ^ (f.ew + f.mw)
    let e := mag / 2 ^ f.mw
    let m := mag % 2 ^ f.mw
    if f.maxCode < mag then (if f.inf = some mag then .inf neg else .nan)
    else if e = 0 then .fin neg m (1 - (f.bias : Int) - f.mw)
    else .fin neg (2 ^ f.mw + m) ((e : Int) - f.bias - f.mw)

/-! ## Rounding (R167 to R175) -/

/-- Whether a magnitude between two neighbours goes to the upper one: modes 0 RNE, 1 RTZ, 2 RDN, 3 RUP, 4 RNA;
`cmp` compares the discarded part with half a unit, `odd` says the lower neighbour's code is odd. -/
def roundUp (mode : Nat) (neg odd : Bool) (zero : Bool) (cmp : Ordering) : Bool :=
  if zero then false
  else match mode with
    | 0 => cmp == .gt || (cmp == .eq && odd)
    | 1 => false
    | 2 => neg
    | 3 => !neg
    | _ => cmp != .lt

/-- m / 2^k split into quotient, whether anything is left, and its comparison with half a unit. -/
def splitAt (m k : Nat) : Nat × Bool × Ordering :=
  if k = 0 then (m, true, .lt)
  else if bitLen m + 1 < k then (0, decide (m = 0), .lt)
  else (m / 2 ^ k, decide (m % 2 ^ k = 0), compare (m % 2 ^ k) (2 ^ (k - 1)))

/-- The code with sign. -/
def Fmt.signed (f : Fmt) (neg : Bool) (mag : Nat) : Nat := if neg then mag + 2 ^ (f.ew + f.mw) else mag

/-- R170 and Table 6-5. (Log 26: DEDUCED, unsafe) -/
def Fmt.overflow (f : Fmt) (neg : Bool) (mode : Nat) : Nat :=
  match f.inf with
  | none => f.signed neg f.maxCode
  | some c => f.signed neg (if mode = 1 ∨ (mode = 2 ∧ neg = false) ∨ (mode = 3 ∧ neg = true) then f.maxCode else c)

/-- The finite non-zero case of round() for every format but CHALK8 (R169). -/
def Fmt.roundFin (f : Fmt) (neg : Bool) (m : Nat) (e : Int) (mode : Nat) : Rnd :=
  let emin : Int := 1 - (f.bias : Int)
  let top : Int := e + bitLen m - 1
  let qe : Int := max top emin - f.mw
  let r := splitAt m (qe - e).toNat
  let q := if e ≤ qe then r.1 else m * 2 ^ (e - qe).toNat
  let exact := decide (qe < e) || r.2.1
  let q := if roundUp mode neg (q % 2 == 1) exact r.2.2 then q + 1 else q
  let mag := (qe - (emin - f.mw)).toNat * 2 ^ f.mw + q
  if f.maxCode < mag then { code := f.overflow neg mode, fl := OF ||| NX, ftz := 0 }
  else
    { code := f.signed neg mag,
      fl := if exact then 0 else if top < emin then UF ||| NX else NX,
      ftz := b2n (decide (mag = 0)) }

/-- Among CHALK8 magnitude codes 0 to n: the code of the largest magnitude ≤ m × 2^e × 2^20 units, given as a fraction
a / b, and of the smallest magnitude ≥ it. -/
def chalkNear (a b : Nat) : Nat → Nat × Nat → Nat × Nat
  | 0, p => p
  | n + 1, p =>
    let c := n + 1
    let mag := chalkMag c
    let lo := if mag * b ≤ a ∧ chalkMag p.1 ≤ mag then c else p.1
    let hi := if a ≤ mag * b ∧ mag ≤ chalkMag p.2 then c else p.2
    chalkNear a b n (lo, hi)

/-- round() into CHALK8 (R167). (Log 26: DEDUCED, unsafe) -/
def chalkRound (neg : Bool) (m : Nat) (e : Int) (mode : Nat) : Rnd :=
  let a := m * 2 ^ (e + 20).toNat
  let b := 2 ^ (-(e + 20)).toNat
  if 8192 * 2 ^ 20 * b < a then { code := if neg then 0x83 else 0x03, fl := OF ||| NX, ftz := 0 }
  else
    let p := chalkNear a b 127 (0, 3)
    let lo := chalkMag p.1
    let hi := chalkMag p.2
    let exact := decide (lo * b = a)
    let cmp := compare (2 * a) ((lo + hi) * b)
    let oddLo := p.1 % 2 == 1 && p.2 % 2 == 0
    let c := if roundUp mode neg oddLo exact cmp then p.2 else p.1
    { code := if c = 0 then 0 else if neg then c + 0x80 else c,
      fl := if exact then 0 else if a < 2 ^ 5 * b then UF ||| NX else NX,
      ftz := b2n (decide (c = 0)) }

/-- round(x, F, mode), delivered as F's code. -/
def Fmt.round (f : Fmt) (x : Val) (mode : Nat) : Rnd :=
  match x with
  | .nan => match f.nan with
    | some c => { code := c, fl := 0, ftz := 0 }
    | none => { code := 0, fl := NV, ftz := 0 }
  | .inf neg =>
    if f.tapered then { code := if neg then 0x83 else 0x03, fl := OF, ftz := 0 }
    else match f.inf with
      | some c => { code := f.signed neg c, fl := 0, ftz := 0 }
      | none => { code := f.signed neg f.maxCode, fl := OF, ftz := 0 }
  | .fin neg 0 _ => { code := if f.tapered then 0 else f.signed neg 0, fl := 0, ftz := 0 }
  | .fin neg (m + 1) e => if f.tapered then chalkRound neg (m + 1) e mode else f.roundFin neg (m + 1) e mode

/-- The saturation option (R171): an infinite result becomes the largest finite value of its sign. -/
def Fmt.satCode (f : Fmt) (c : Nat) : Nat :=
  match f.inf with
  | none => c
  | some i => if c = i then f.maxCode else if c = f.signed true i then f.signed true f.maxCode else c

/-- cvt(x, F, mode, sf) of Table 6-8. -/
def Fmt.cvt (f : Fmt) (x : Val) (mode : Nat) (sf : Bool) : Rnd :=
  let r := f.round x mode
  if sf then { r with code := f.satCode r.code } else r

/-- An integer and the flags of its forming. -/
structure RndI where
  val : Int
  fl : Nat
  deriving DecidableEq, Repr

/-- round_int(x, T, mode) for a T with range lo to hi (R173). -/
def roundInt (x : Val) (lo hi : Int) (mode : Nat) : RndI :=
  match x with
  | .nan => { val := 0, fl := NV }
  | .inf neg => { val := if neg then lo else hi, fl := NV }
  | .fin neg m e =>
    let r := splitAt m (-e).toNat
    let q := if 0 < e then m * 2 ^ e.toNat else r.1
    let exact := decide (0 < e) || r.2.1
    let q := if roundUp mode neg (q % 2 == 1) exact r.2.2 then q + 1 else q
    let v : Int := if neg then -(q : Int) else q
    if v < lo then { val := lo, fl := NV }
    else if hi < v then { val := hi, fl := NV }
    else { val := v, fl := if exact then 0 else NX }

/-! ## Exact operations (R172): the value, and NV or DZ where the operation itself raises it -/

/-- An integer as an exact value; zero is +0. -/
def Val.ofInt (x : Int) : Val := .fin (decide (x < 0)) x.natAbs 0

def Val.neg : Val → Val
  | .nan => .nan
  | .inf s => .inf (!s)
  | .fin s m e => .fin (!s) m e

def Val.abs : Val → Val
  | .nan => .nan
  | .inf _ => .inf false
  | .fin _ m e => .fin false m e

def Val.isNan : Val → Bool
  | .nan => true
  | _ => false

def Val.isFin : Val → Bool
  | .fin _ _ _ => true
  | _ => false

def Val.sign : Val → Bool
  | .nan => false
  | .inf s => s
  | .fin s _ _ => s

/-- m × 2^e as a signed integer in units of 2^u, for u ≤ e. -/
def toUnits (s : Bool) (m : Nat) (e u : Int) : Int :=
  let v : Int := (m * 2 ^ (e - u).toNat : Nat)
  if s then -v else v

/-- a + b, exact. A zero sum of non-zero terms, and a sum of zeros of both signs, is +0, or −0 under RDN. -/
def Val.add (mode : Nat) (a b : Val) : Val × Nat :=
  match a, b with
  | .nan, _ => (.nan, 0)
  | _, .nan => (.nan, 0)
  | .inf s, .inf t => if s = t then (.inf s, 0) else (.nan, NV)
  | .inf s, .fin _ _ _ => (.inf s, 0)
  | .fin _ _ _, .inf t => (.inf t, 0)
  | .fin s m e, .fin t n f =>
    if m = 0 ∧ n = 0 then (.fin (if s = t then s else mode == 2) 0 0, 0)
    else
      let u := min e f
      let v := toUnits s m e u + toUnits t n f u
      if v = 0 then (.fin (mode == 2) 0 0, 0) else (.fin (decide (v < 0)) v.natAbs u, 0)

/-- a × b, exact. -/
def Val.mul (a b : Val) : Val × Nat :=
  match a, b with
  | .nan, _ => (.nan, 0)
  | _, .nan => (.nan, 0)
  | .inf s, .inf t => (.inf (s != t), 0)
  | .inf s, .fin t n _ => if n = 0 then (.nan, NV) else (.inf (s != t), 0)
  | .fin s m _, .inf t => if m = 0 then (.nan, NV) else (.inf (s != t), 0)
  | .fin s m e, .fin t n f => (.fin (s != t) (m * n) (if m * n = 0 then 0 else e + f), 0)

/-- A positive quantity between m and m + 1 units, exact when `ex`: a further bit below the last marks what is left, so
that no format here can tell it from the exact value. -/
def sticky (s : Bool) (m : Nat) (ex : Bool) (e : Int) : Val :=
  if ex then .fin s m e else .fin s (2 * m + 1) (e - 1)

/-- a / b (R259): 0 / 0 and ∞ / ∞ are invalid, a finite non-zero value over zero raises DZ. -/
def Val.div (a b : Val) : Val × Nat :=
  match a, b with
  | .nan, _ => (.nan, 0)
  | _, .nan => (.nan, 0)
  | .inf _, .inf _ => (.nan, NV)
  | .inf s, .fin t _ _ => (.inf (s != t), 0)
  | .fin s _ _, .inf t => (.fin (s != t) 0 0, 0)
  | .fin s m e, .fin t n f =>
    if n = 0 then (if m = 0 then (.nan, NV) else (.inf (s != t), DZ))
    else if m = 0 then (.fin (s != t) 0 0, 0)
    else
      let k := 80 + bitLen n
      let x := m * 2 ^ k
      (sticky (s != t) (x / n) (decide (x % n = 0)) (e - f - k), 0)

/-- ⌊√n⌋, bit by bit from bit `i`. -/
def isqrtFrom (n : Nat) : Nat → Nat → Nat
  | 0, r => r
  | i + 1, r => isqrtFrom n i (if (r + 2 ^ i) * (r + 2 ^ i) ≤ n then r + 2 ^ i else r)

def isqrt (n : Nat) : Nat := isqrtFrom n (bitLen n / 2 + 1) 0

/-- √a (R259): √(−0) is −0, the root of a negative number is invalid. -/
def Val.sqrt (a : Val) : Val × Nat :=
  match a with
  | .nan => (.nan, 0)
  | .inf s => if s then (.nan, NV) else (.inf false, 0)
  | .fin s m e =>
    if m = 0 then (.fin s 0 0, 0)
    else if s then (.nan, NV)
    else
      let odd := e % 2
      let n := m * 2 ^ odd.toNat * 2 ^ 160
      let r := isqrt n
      (sticky false r (decide (r * r = n)) ((e - odd) / 2 - 80), 0)

/-- 1 / √a with the special cases of Table 6-7. -/
def Val.rsqrt (a : Val) : Val × Nat :=
  match a with
  | .nan => (.nan, 0)
  | .inf s => if s then (.nan, NV) else (.fin false 0 0, 0)
  | .fin s m e =>
    if m = 0 then (.inf s, DZ)
    else if s then (.nan, NV)
    else
      let odd := e % 2
      let d := m * 2 ^ odd.toNat
      let k := 80 + bitLen d
      let n := 2 ^ (2 * k)
      let r := isqrt (n / d)
      (sticky false r (decide (r * r * d = n)) (-((e - odd) / 2) - k), 0)

/-- 1 / a with the special cases of Table 6-7. -/
def Val.recip (a : Val) : Val × Nat :=
  match a with
  | .inf s => (.fin s 0 0, 0)
  | .fin s 0 _ => (.inf s, DZ)
  | _ => Val.div (.fin false 1 0) a

/-- The order of two values that are not NaN; −0 equals +0. -/
def Val.cmp (a b : Val) : Ordering :=
  match a, b with
  | .inf s, .inf t => if s = t then .eq else if s then .lt else .gt
  | .inf s, _ => if s then .lt else .gt
  | _, .inf t => if t then .gt else .lt
  | .fin s m e, .fin t n f =>
    let u := min e f
    compare (toUnits s m e u) (toUnits t n f u)
  | _, _ => .eq

/-- FMIN and FMAX (R260): a NaN operand gives NaN, −0 lies below +0. -/
def Val.min2 (a b : Val) : Val :=
  if a.isNan || b.isNan then .nan
  else match a.cmp b with
    | .lt => a
    | .gt => b
    | .eq => if a.sign then a else b

def Val.max2 (a b : Val) : Val :=
  if a.isNan || b.isNan then .nan
  else match a.cmp b with
    | .lt => b
    | .gt => a
    | .eq => if a.sign then b else a

/-- The conditions of FCMP and VCMP (R262): 0 EQ, 1 NE, 2 LT, 3 LE, 6 and 4-as-UN are resolved by the caller. -/
def Val.holds (cond : Nat) (a b : Val) : Bool :=
  let un := a.isNan || b.isNan
  match cond with
  | 0 => !un && a.cmp b == .eq
  | 1 => un || a.cmp b != .eq
  | 2 => !un && a.cmp b == .lt
  | 3 => !un && a.cmp b != .gt
  | _ => un

/-! ## 2^x (R185) -/

/-- Σ over k = 1 to n of ⌊2^p / (k × 2^k)⌋, a lower bound of ln 2 in units of 2^−p. -/
def ln2Sum (p : Nat) : Nat → Nat
  | 0 => 0
  | n + 1 => 2 ^ p / ((n + 1) * 2 ^ (n + 1)) + ln2Sum p n

/-- Σ of the exponential series of t (units of 2^−p), each term rounded down: k is the next term's number. -/
def expSum (p t : Nat) : Nat → Nat → Nat → Nat
  | 0, _, term => term
  | n + 1, k, term => term + expSum p t n (k + 1) (term * t / 2 ^ p / k)

/-- A lower bound of 2^(a / 2^k), for a < 2^k, in units of 2^−p; the true value lies within 8 p units above it. -/
def exp2Frac (p a k : Nat) : Nat :=
  expSum p (a * ln2Sum p p / 2 ^ k) p 1 (2 ^ p)

/-- 2^x rounded into F for a non-integer x = ± m × 2^e with e < 0: the first precision at which both ends of the
enclosing interval round alike decides. -/
def exp2Try (f : Fmt) (n : Int) (a k : Nat) : List Nat → Rnd
  | [] => f.round (.fin false 1 n) 0
  | [p] => f.round (.fin false (2 * exp2Frac p a k + 1) (n - p - 1)) 0
  | p :: ps =>
    let lo := exp2Frac p a k
    let r := f.round (.fin false (2 * lo + 1) (n - p - 1)) 0
    let r' := f.round (.fin false (2 * (lo + 8 * p) + 1) (n - p - 1)) 0
    if r.code = r'.code then r else exp2Try f n a k ps

/-- The rounding of a vector function: UF goes with a rounded result below the smallest normal (R185). (Log 21:
DEDUCED, unsafe) -/
def Fmt.fnRound (f : Fmt) (r : Rnd) : Rnd :=
  let tiny := decide (r.code % 2 ^ (f.ew + f.mw) < 2 ^ f.mw)
  if bitN r.fl 3 && !tiny then { r with fl := r.fl - UF } else r

/-- VEXP2 of one lane (Table 6-7). (Log 21: DEDUCED, unsafe) -/
def Fmt.exp2 (f : Fmt) (x : Val) : Rnd :=
  match x with
  | .nan => f.round .nan 0
  | .inf s => f.round (if s then .fin false 0 0 else .inf false) 0
  | .fin s m e =>
    if m = 0 then f.round (.fin false 1 0) 0
    else if 0 ≤ e ∨ m % 2 ^ (-e).toNat = 0 then
      let i := if 0 ≤ e then m * 2 ^ e.toNat else m / 2 ^ (-e).toNat
      let i := min i 4096
      f.fnRound (f.round (.fin false 1 (if s then -(i : Int) else i)) 0)
    else
      let k := (-e).toNat
      let i := m / 2 ^ k
      if 4096 ≤ i then f.fnRound (f.round (.fin false 3 (if s then -4096 else 4096)) 0)
      else
        let a := m % 2 ^ k
        f.fnRound (if s then exp2Try f (-(i : Int) - 1) (2 ^ k - a) k [96, 192, 384]
          else exp2Try f i a k [96, 192, 384])

/-! ## The window formats (Table 4-3) -/

/-- The floating format of a window, or of a lane type. -/
def winFmt (w : Nat) : Fmt :=
  match w with
  | 5 => FP4
  | 6 => FP6A
  | 7 => FP6B
  | 8 => E4M3
  | 9 => E5M2
  | 10 => CHALK8
  | 11 => BF16
  | 12 => FP16
  | 13 => TF19
  | _ => FP32

/-- Windows 1 to 4 are integer formats. -/
def winInt (w : Nat) : Bool := decide (1 ≤ w) && decide (w ≤ 4)

/-- Bits of an element's container: TF19 uses 19 of its 32. -/
def winBits (w : Nat) : Nat :=
  match w with
  | 1 | 2 | 5 => 4
  | 6 | 7 => 6
  | 11 | 12 => 16
  | 13 | 14 => 32
  | _ => 8

/-- The alignment of an offset through the window (Table 4-3). -/
def winAlign (w : Nat) : Nat :=
  match w with
  | 6 | 7 => 3
  | 11 | 12 => 2
  | 13 | 14 => 4
  | _ => 1

/-- The range of an integer window (Table 6-1). -/
def winLo (w : Nat) : Int :=
  match w with
  | 1 => -8
  | 3 => -128
  | _ => 0
def winHi (w : Nat) : Int :=
  match w with
  | 1 => 7
  | 2 => 15
  | 3 => 127
  | _ => 255

/-- The exact value of an element's container bits. -/
def winInt_value (w b : Nat) : Int :=
  match w with
  | 1 => sx 4 b
  | 2 => ((b % 16 : Nat) : Int)
  | 3 => sx 8 b
  | _ => ((b % 256 : Nat) : Int)

def winVal (w b : Nat) : Val :=
  if winInt w then .ofInt (winInt_value w b)
  else if w = 13 then TF19.decode (b % 2 ^ 19)
  else (winFmt w).decode (b % 2 ^ (winFmt w).width)

/-- two_sum(a, b) on FP32 codes (R186): s, the error e, the flags and flush count of forming s. -/
def twoSum (a b : Nat) : Nat × Val × Nat × Nat :=
  let x := FP32.decode a
  let y := FP32.decode b
  let t := Val.add 0 x y
  let r := FP32.round t.1 0
  let s := FP32.decode r.code
  let e := if s.isFin then (Val.add 0 (Val.add 0 x y).1 s.neg).1 else .fin false 0 0
  (r.code, e, t.2 ||| r.fl, r.ftz)

end Sys2Proof.Machine
end

