-- ==== Sys2Proof/Config.lean ====
section
/-!
DEFINITION. What the manual leaves to the implementation or does not state: constants without a body. Nothing in Lean can
evaluate one, so a statement that mentions one holds for every value it could have. Each is named in the assumption log.
-/
namespace Sys2Proof.Config

/-- The Proctor's attestation signature over a digest (R454); the private key never leaves the Proctor. (Log 7:
PRESUMED, unsafe) -/
opaque signAttest : List Byte → List Byte
/-- The device certificate and Tustad's intermediate certificate, DER-encoded (R453). -/
opaque certificates : Nat → List Byte
/-- A stack word with three or more flipped bits: 0 double error, 1 wrong correction, 2 undetected (R467: not
specified). Arguments: the flipped-bit mask and the stored word. (Log 8: DESIGN CHOICE, safe) -/
opaque manyFlips : Nat → Nat → Nat
/-- The value such a read delivers (R467: not specified). -/
opaque manyFlipsValue : Nat → Nat → BitVec 64
/-- Fused identity: stepping, serial number, the anti-rollback floor, the two key hashes (R450, R451); the flash slots as
the part leaves the factory, keyed 2 × (kind − 1) + slot, and the bytes a slot of a kind holds (R452: not stated).
(Log 9: DESIGN CHOICE, safe) -/
opaque stepping : BitVec 8
/-- Log 9: DESIGN CHOICE, safe. -/
opaque serial : BitVec 64
/-- Log 9: DESIGN CHOICE, safe. -/
opaque fusedSvn : BitVec 7
opaque keyHash : Nat → List Byte
opaque factoryFlash : Nat → List Byte
opaque slotSize : Nat → Nat
/-- The release number of a firmware image (Table 19-2: where it stands in the image is not stated). -/
opaque releaseOf : List Byte → BitVec 64
/-- The factory margin table: offset (0.5 mV) and bin of a column, its slack (Table 20-3). -/
opaque factoryOffset : Nat → BitVec 8
opaque factorySlow : Nat → Bool
opaque factorySlack : Nat → BitVec 16
/-- What a margin re-plan measures at a column (R464): the needed offset from the factory table in 0.5 mV, the
ring-oscillator drift, and the slack at the applied offset. Arguments: the number of the re-plan, the column. -/
opaque marginNeed : Nat → Nat → Int
opaque marginDrift : Nat → Nat → BitVec 16
opaque marginSlack : Nat → Nat → BitVec 16
/-- The 1 KiB that RCREAD returns for a column: the manual lists its contents and states no layout (R471). (Log 115:
DESIGN CHOICE, safe) -/
opaque captureLayout : List Nat → List Byte
/-- What a capture of another block holds: a number drawn at the latch, the block (R471: not stated). -/
opaque captureOther : Nat → Nat → List Byte
/-- A free value, fresh at each number: what the manual calls undefined or unspecified and the machine goes on from.
(Log 6: DESIGN CHOICE, safe) -/
opaque freeValue : Nat → BitVec 64

end Sys2Proof.Config
end

