-- ==== Sys2Proof/Machine/Sparse.lean ====
section
/-!
DEFINITION. Sparse tables: lists of (key, value) pairs in one canonical form. A key that is not listed reads as the
table's default, no listed value equals the default, and keys rise strictly, so that equal tables are equal lists.
Registers, columns, tiles, queues' registers and every memory are such tables.
-/
namespace Sys2Proof.Machine

/-- Read: the value listed at `k`, else the default `d`. -/
def sget {α : Type} (d : α) : List (Nat × α) → Nat → α
  | [], _ => d
  | (a, v) :: t, k => if a = k then v else sget d t k

/-- Remove every entry at `k`. -/
def sdel {α : Type} : List (Nat × α) → Nat → List (Nat × α)
  | [], _ => []
  | (a, v) :: t, k => if a = k then sdel t k else (a, v) :: sdel t k

/-- Enter `v` at `k`, in key order, replacing what stood there. -/
def sins {α : Type} : List (Nat × α) → Nat → α → List (Nat × α)
  | [], k, v => [(k, v)]
  | (a, w) :: t, k, v =>
    if k < a then (k, v) :: (a, w) :: t
    else if a = k then (k, v) :: t
    else (a, w) :: sins t k v

/-- Write: writing the default removes the entry. -/
def sput {α : Type} [DecidableEq α] (d : α) (m : List (Nat × α)) (k : Nat) (v : α) : List (Nat × α) :=
  if v = d then sdel m k else sins m k v

/-- Every key above `b`, rising strictly. -/
def sorted {α : Type} : Option Nat → List (Nat × α) → Bool
  | _, [] => true
  | none, (a, _) :: t => sorted (some a) t
  | some b, (a, _) :: t => decide (b < a) && sorted (some a) t

/-- The canonical form. -/
def canonical {α : Type} [DecidableEq α] (d : α) (m : List (Nat × α)) : Bool :=
  sorted none m && m.all (fun p => decide (p.2 ≠ d))

/-- The first position of a list at which `f` holds. -/
def findIx {α : Type} (f : α → Bool) : List α → Option Nat
  | [] => none
  | a :: t => if f a then some 0 else (findIx f t).map (· + 1)

/-- A list with the element at position `n` replaced by what `f` gives, or dropped. -/
def modifyAt {α : Type} (f : α → Option α) : List α → Nat → List α
  | [], _ => []
  | a :: t, 0 => match f a with
    | some b => b :: t
    | none => t
  | a :: t, n + 1 => a :: modifyAt f t n

/-- A list without the element at position `n`. -/
def dropAt {α : Type} (l : List α) (n : Nat) : List α := modifyAt (fun _ => none) l n

/-- A list with the element at position `n` replaced. -/
def setAt {α : Type} (l : List α) (n : Nat) (v : α) : List α := modifyAt (fun _ => some v) l n

end Sys2Proof.Machine
end

