-- ==== Sys2Proof/Syntax.lean ====
section
/-!
DEFINITION. The instruction set: one constructor per row of spec/opcode_table.json.
The first 211 constructors are the encoded 32-bit instructions of the column (spec/07 to spec/11); their arguments are
the raw fields of the word, named by the table (g and W belong to the word's group and stand in `Header`, Decode.lean).
The other 108 are the whole and indivisible steps of the rest of the package that the table lists beside them (firing
start, message delivery, a mailbox command ...; spec/95): they have no encoding and carry which column, band, queue or
list position they act on, and the value a host write carries. `cause` of illegalInstruction is a cause of Table 7-5.
-/
namespace Sys2Proof

inductive Instr where
  -- encoded instructions
  | nop  -- NOP (R217)
  | endFiring  -- END (R42)
  | trap (a : BitVec 5) (p : BitVec 1) (n : BitVec 6)  -- TRAP (R218)
  | tretRetry  -- TRET_RETRY (R219)
  | tretNext  -- TRET_NEXT (R219)
  | tretAbort  -- TRET_ABORT (R219)
  | snap (a : BitVec 5) (c : BitVec 7)  -- SNAP (R220)
  | sysrd (d : BitVec 5) (r : BitVec 12)  -- SYSRD (R221)
  | syswr (d : BitVec 5) (r : BitVec 12)  -- SYSWR (R221)
  | beq (a b : BitVec 5) (o : BitVec 12)  -- BEQ (R213)
  | bne (a b : BitVec 5) (o : BitVec 12)  -- BNE (R213)
  | blt (a b : BitVec 5) (o : BitVec 12)  -- BLT (R213)
  | bge (a b : BitVec 5) (o : BitVec 12)  -- BGE (R213)
  | bltu (a b : BitVec 5) (o : BitVec 12)  -- BLTU (R213)
  | bgeu (a b : BitVec 5) (o : BitVec 12)  -- BGEU (R213)
  | jal (o : BitVec 22)  -- JAL (R214)
  | jalr (d a : BitVec 5) (i : BitVec 12)  -- JALR (R215)
  | loop (a : BitVec 5) (i : BitVec 12)  -- LOOP (R216)
  | ldch (d a : BitVec 5) (i : BitVec 12)  -- LDCH (R226)
  | ldB (d a : BitVec 5) (i : BitVec 12)  -- LD_B (R224)
  | ldH (d a : BitVec 5) (i : BitVec 12)  -- LD_H (R224)
  | ldW (d a : BitVec 5) (i : BitVec 12)  -- LD_W (R224)
  | ldD (d a : BitVec 5) (i : BitVec 12)  -- LD_D (R224)
  | lduB (d a : BitVec 5) (i : BitVec 12)  -- LDU_B (R224)
  | lduH (d a : BitVec 5) (i : BitVec 12)  -- LDU_H (R224)
  | lduW (d a : BitVec 5) (i : BitVec 12)  -- LDU_W (R224)
  | ldfF32 (d a : BitVec 5) (i : BitVec 12)  -- LDF_F32 (R224)
  | ldfBf16 (d a : BitVec 5) (i : BitVec 12)  -- LDF_BF16 (R224)
  | stB (d a : BitVec 5) (i : BitVec 12)  -- ST_B (R224)
  | stH (d a : BitVec 5) (i : BitVec 12)  -- ST_H (R224)
  | stW (d a : BitVec 5) (i : BitVec 12)  -- ST_W (R224)
  | stD (d a : BitVec 5) (i : BitVec 12)  -- ST_D (R224)
  | stfF32 (d a : BitVec 5) (i : BitVec 12)  -- STF_F32 (R224)
  | stfBf16 (d a : BitVec 5) (i : BitVec 12)  -- STF_BF16 (R224)
  | vld (d a b : BitVec 5) (t : BitVec 3) (s : BitVec 4)  -- VLD (R228)
  | vst (d a b : BitVec 5) (t : BitVec 3) (s : BitVec 4)  -- VST (R228)
  | vlds (d a b : BitVec 5) (t : BitVec 3) (s : BitVec 4)  -- VLDS (R229)
  | vsts (d a b : BitVec 5) (t : BitVec 3) (s : BitVec 4)  -- VSTS (R229)
  | vgath (d a b : BitVec 5) (t : BitVec 3) (s : BitVec 4)  -- VGATH (R230)
  | vscat (d a b : BitVec 5) (t : BitVec 3) (s : BitVec 4)  -- VSCAT (R230)
  | amoAdd (d a b : BitVec 5) (s : BitVec 4)  -- AMO_ADD (R231)
  | amoAnd (d a b : BitVec 5) (s : BitVec 4)  -- AMO_AND (R231)
  | amoOr (d a b : BitVec 5) (s : BitVec 4)  -- AMO_OR (R231)
  | amoXor (d a b : BitVec 5) (s : BitVec 4)  -- AMO_XOR (R231)
  | amoMin (d a b : BitVec 5) (s : BitVec 4)  -- AMO_MIN (R231)
  | amoMax (d a b : BitVec 5) (s : BitVec 4)  -- AMO_MAX (R231)
  | amoSwap (d a b : BitVec 5) (s : BitVec 4)  -- AMO_SWAP (R231)
  | amoCas (d a b : BitVec 5) (s : BitVec 4)  -- AMO_CAS (R231)
  | fence (e m r : BitVec 1) (s : BitVec 3)  -- FENCE (R145)
  | lfence (l : BitVec 3)  -- LFENCE (R147)
  | acvtOff (d a : BitVec 5)  -- ACVT_OFF (R235)
  | acvtG (d a : BitVec 5)  -- ACVT_G (R235)
  | acvtL (d a : BitVec 5)  -- ACVT_L (R235)
  | acvtC (d a : BitVec 5)  -- ACVT_C (R235)
  | acvtLc (d a : BitVec 5)  -- ACVT_LC (R235)
  | acvtCl (d a : BitVec 5)  -- ACVT_CL (R235)
  | atest (d a : BitVec 5)  -- ATEST (R236)
  | recv (d : BitVec 5) (c : BitVec 7)  -- RECV (R238)
  | send (d : BitVec 5) (c : BitVec 7)  -- SEND (R239)
  | peek (d : BitVec 5) (k : BitVec 4) (c : BitVec 7)  -- PEEK (R240)
  | chst (d : BitVec 5) (c : BitVec 7)  -- CHST (R241)
  | bella (l : BitVec 5)  -- BELLA (R242)
  | bellw (d l : BitVec 5)  -- BELLW (R242)
  | bellt (d l : BitVec 5)  -- BELLT (R242)
  | pbarr (d a b : BitVec 5) (s : BitVec 4)  -- PBARR (R244)
  | pbwait (d a b : BitVec 5) (s : BitVec 4)  -- PBWAIT (R245)
  | mwait (d a b : BitVec 5) (c : BitVec 2) (z : BitVec 1) (s : BitVec 4)  -- MWAIT (R246)
  | cpy (d a b : BitVec 5) (s : BitVec 3)  -- CPY (R309)
  | cpyS (d a b : BitVec 5) (s : BitVec 3)  -- CPY_S (R311)
  | ctarm (a : BitVec 5) (n : BitVec 4)  -- CTARM (R317)
  | ctarmOff (n : BitVec 4)  -- CTARM_OFF (R317)
  | lswap (d a : BitVec 5)  -- LSWAP (R320)
  | kvapp (d a b : BitVec 5) (z : BitVec 3)  -- KVAPP (R323)
  | ktbfill (a b : BitVec 5)  -- KTBFILL (R325)
  | ktbinvOne (a : BitVec 5)  -- KTBINV_ONE (R325)
  | ktbinvSeq (a : BitVec 5)  -- KTBINV_SEQ (R325)
  | ktbinvAll  -- KTBINV_ALL (R325)
  | flpop (d : BitVec 5)  -- FLPOP (R327)
  | flpush (d a : BitVec 5)  -- FLPUSH (R327)
  | ssld (d a b : BitVec 5)  -- SSLD (R331)
  | ssst (d a b : BitVec 5) (n : BitVec 1)  -- SSST (R331)
  | ssnap (d b : BitVec 5)  -- SSNAP (R331)
  | ssroll (d b : BitVec 5)  -- SSROLL (R331)
  | ssfork (d a b : BitVec 5)  -- SSFORK (R331)
  | ssdrop (d b : BitVec 5)  -- SSDROP (R331)
  | add (d a b : BitVec 5)  -- ADD (R255)
  | sub (d a b : BitVec 5)  -- SUB (R255)
  | and (d a b : BitVec 5)  -- AND (R255)
  | or (d a b : BitVec 5)  -- OR (R255)
  | xor (d a b : BitVec 5)  -- XOR (R255)
  | shl (d a b : BitVec 5)  -- SHL (R255)
  | shr (d a b : BitVec 5)  -- SHR (R255)
  | sar (d a b : BitVec 5)  -- SAR (R255)
  | slt (d a b : BitVec 5)  -- SLT (R255)
  | sltu (d a b : BitVec 5)  -- SLTU (R255)
  | min (d a b : BitVec 5)  -- MIN (R255)
  | max (d a b : BitVec 5)  -- MAX (R255)
  | minu (d a b : BitVec 5)  -- MINU (R255)
  | maxu (d a b : BitVec 5)  -- MAXU (R255)
  | clz (d a : BitVec 5)  -- CLZ (R255)
  | popc (d a : BitVec 5)  -- POPC (R255)
  | andn (d a b : BitVec 5)  -- ANDN (R255)
  | addi (d a : BitVec 5) (i : BitVec 12)  -- ADDI (R256)
  | andi (d a : BitVec 5) (i : BitVec 12)  -- ANDI (R256)
  | ori (d a : BitVec 5) (i : BitVec 12)  -- ORI (R256)
  | xori (d a : BitVec 5) (i : BitVec 12)  -- XORI (R256)
  | shli (d a : BitVec 5) (i : BitVec 6)  -- SHLI (R256)
  | shri (d a : BitVec 5) (i : BitVec 6)  -- SHRI (R256)
  | sari (d a : BitVec 5) (i : BitVec 6)  -- SARI (R256)
  | slti (d a : BitVec 5) (i : BitVec 12)  -- SLTI (R256)
  | sltiu (d a : BitVec 5) (i : BitVec 12)  -- SLTIU (R256)
  | mul (d a b : BitVec 5)  -- MUL (R257)
  | mulhs (d a b : BitVec 5)  -- MULHS (R257)
  | mulhu (d a b : BitVec 5)  -- MULHU (R257)
  | mulhm (d a b : BitVec 5)  -- MULHM (R257)
  | mul32s (d a b : BitVec 5)  -- MUL32S (R257)
  | divs (d a b : BitVec 5)  -- DIVS (R257)
  | divu (d a b : BitVec 5)  -- DIVU (R257)
  | rems (d a b : BitVec 5)  -- REMS (R257)
  | remu (d a b : BitVec 5)  -- REMU (R257)
  | li (d : BitVec 5) (i : BitVec 17)  -- LI (R258)
  | lis (d : BitVec 5) (i : BitVec 17)  -- LIS (R258)
  | fadd (d a b : BitVec 5) (m : BitVec 3)  -- FADD (R259)
  | fsub (d a b : BitVec 5) (m : BitVec 3)  -- FSUB (R259)
  | fmul (d a b : BitVec 5) (m : BitVec 3)  -- FMUL (R259)
  | fdiv (d a b : BitVec 5) (m : BitVec 3)  -- FDIV (R259)
  | fsqrt (d a : BitVec 5) (m : BitVec 3)  -- FSQRT (R259)
  | fmin (d a b : BitVec 5)  -- FMIN (R260)
  | fmax (d a b : BitVec 5)  -- FMAX (R260)
  | fabs (d a : BitVec 5)  -- FABS (R260)
  | fneg (d a : BitVec 5)  -- FNEG (R260)
  | fmadd (d a b : BitVec 5) (m : BitVec 3)  -- FMADD (R261)
  | fmsub (d a b : BitVec 5) (m : BitVec 3)  -- FMSUB (R261)
  | fnmadd (d a b : BitVec 5) (m : BitVec 3)  -- FNMADD (R261)
  | fnmsub (d a b : BitVec 5) (m : BitVec 3)  -- FNMSUB (R261)
  | fcmp (d a b : BitVec 5) (c : BitVec 3)  -- FCMP (R262)
  | fcvtF32L (d a : BitVec 5) (m : BitVec 3) (s : BitVec 1)  -- FCVT_F32_L (R263)
  | fcvtF32Lu (d a : BitVec 5) (m : BitVec 3) (s : BitVec 1)  -- FCVT_F32_LU (R263)
  | fcvtLF32 (d a : BitVec 5) (m : BitVec 3)  -- FCVT_L_F32 (R263)
  | fcvtLuF32 (d a : BitVec 5) (m : BitVec 3)  -- FCVT_LU_F32 (R263)
  | fcvtWF32 (d a : BitVec 5) (m : BitVec 3)  -- FCVT_W_F32 (R263)
  | fcvtBf16F32 (d a : BitVec 5) (m : BitVec 3) (s : BitVec 1)  -- FCVT_BF16_F32 (R263)
  | fcvtF32Bf16 (d a : BitVec 5)  -- FCVT_F32_BF16 (R263)
  | vadd (d a b : BitVec 5) (t : BitVec 3)  -- VADD (R264)
  | vsub (d a b : BitVec 5) (t : BitVec 3)  -- VSUB (R264)
  | vadds (d a b : BitVec 5) (t : BitVec 3)  -- VADDS (R264)
  | vsubs (d a b : BitVec 5) (t : BitVec 3)  -- VSUBS (R264)
  | vmul (d a b : BitVec 5) (t : BitVec 3)  -- VMUL (R264)
  | vmulh (d a b : BitVec 5) (t : BitVec 3)  -- VMULH (R264)
  | vmin (d a b : BitVec 5) (t : BitVec 3)  -- VMIN (R264)
  | vmax (d a b : BitVec 5) (t : BitVec 3)  -- VMAX (R264)
  | vand (d a b : BitVec 5) (t : BitVec 3)  -- VAND (R264)
  | vor (d a b : BitVec 5) (t : BitVec 3)  -- VOR (R264)
  | vxor (d a b : BitVec 5) (t : BitVec 3)  -- VXOR (R264)
  | vshl (d a b : BitVec 5) (t : BitVec 3)  -- VSHL (R264)
  | vshr (d a b : BitVec 5) (t : BitVec 3)  -- VSHR (R264)
  | vsar (d a b : BitVec 5) (t : BitVec 3)  -- VSAR (R264)
  | vabs (d a : BitVec 5) (t : BitVec 3)  -- VABS (R264)
  | vfadd (d a b : BitVec 5) (t : BitVec 3)  -- VFADD (R265)
  | vfsub (d a b : BitVec 5) (t : BitVec 3)  -- VFSUB (R265)
  | vfmul (d a b : BitVec 5) (t : BitVec 3)  -- VFMUL (R265)
  | vfdiv (d a b : BitVec 5) (t : BitVec 3)  -- VFDIV (R265)
  | vfsqrt (d a : BitVec 5) (t : BitVec 3)  -- VFSQRT (R265)
  | vfmin (d a b : BitVec 5) (t : BitVec 3)  -- VFMIN (R260)
  | vfmax (d a b : BitVec 5) (t : BitVec 3)  -- VFMAX (R260)
  | vfabs (d a : BitVec 5) (t : BitVec 3)  -- VFABS (R260)
  | vfneg (d a : BitVec 5) (t : BitVec 3)  -- VFNEG (R260)
  | vfmadd (d a b : BitVec 5) (t : BitVec 3)  -- VFMADD (R266)
  | vfmsub (d a b : BitVec 5) (t : BitVec 3)  -- VFMSUB (R266)
  | vfnmadd (d a b : BitVec 5) (t : BitVec 3)  -- VFNMADD (R266)
  | vfnmsub (d a b : BitVec 5) (t : BitVec 3)  -- VFNMSUB (R266)
  | vcmp (q : BitVec 3) (a b : BitVec 5) (t c : BitVec 3)  -- VCMP (R269)
  | qand (q r s : BitVec 3)  -- QAND (R269)
  | qor (q r s : BitVec 3)  -- QOR (R269)
  | qxor (q r s : BitVec 3)  -- QXOR (R269)
  | qandn (q r s : BitVec 3)  -- QANDN (R269)
  | qsetx (q : BitVec 3) (a : BitVec 5)  -- QSETX (R269)
  | qgetx (d : BitVec 5) (r : BitVec 3)  -- QGETX (R269)
  | vsel (d a b : BitVec 5) (t q : BitVec 3)  -- VSEL (R270)
  | vbcastX (d a : BitVec 5) (t : BitVec 3)  -- VBCAST_X (R271)
  | vbcastLane (d a b : BitVec 5) (t : BitVec 3)  -- VBCAST_LANE (R271)
  | vperm (d a b : BitVec 5) (t : BitVec 3)  -- VPERM (R272)
  | vexp2 (d a : BitVec 5) (t : BitVec 3)  -- VEXP2 (R267)
  | vrcp (d a : BitVec 5) (t : BitVec 3)  -- VRCP (R267)
  | vrsq (d a : BitVec 5) (t : BitVec 3)  -- VRSQ (R267)
  | vredAdd (d a : BitVec 5) (q t : BitVec 3)  -- VRED_ADD (R273)
  | vredMax (d a : BitVec 5) (q t : BitVec 3)  -- VRED_MAX (R273)
  | vredMin (d a : BitVec 5) (q t : BitVec 3)  -- VRED_MIN (R273)
  | vredMaxi (d a : BitVec 5) (q t : BitVec 3)  -- VRED_MAXI (R273)
  | vxtr (d a b : BitVec 5) (t : BitVec 3)  -- VXTR (R273)
  | vpopq (d : BitVec 5) (q t : BitVec 3)  -- VPOPQ (R273)
  | vsumkAcc (d a : BitVec 5) (q : BitVec 3)  -- VSUMK_ACC (R274)
  | vsumkScale (d a : BitVec 5) (q : BitVec 3)  -- VSUMK_SCALE (R274)
  | vsumkFold (d : BitVec 5) (q : BitVec 3)  -- VSUMK_FOLD (R274)
  | vsumkFin (d : BitVec 5) (q : BitVec 3)  -- VSUMK_FIN (R274)
  | vscan (d a : BitVec 5) (q t : BitVec 3) (c : BitVec 1) (o : BitVec 2)  -- VSCAN (R275)
  | vhad (d a k : BitVec 5) (t : BitVec 3)  -- VHAD (R268)
  | vcvt (d a k : BitVec 5) (t : BitVec 3) (s : BitVec 1) (m : BitVec 3)  -- VCVT (R276)
  | mzero (c : BitVec 3) (m : BitVec 1)  -- MZERO (R290)
  | mma (c : BitVec 3) (a b : BitVec 5) (s : BitVec 2)  -- MMA (R291)
  | mmag (c : BitVec 3) (a b : BitVec 5) (s : BitVec 2)  -- MMAG (R292)
  | mprom (c : BitVec 3)  -- MPROM (R290)
  | mrdW (c : BitVec 3) (v b : BitVec 5)  -- MRD_W (R293)
  | mrdF32 (c : BitVec 3) (v b : BitVec 5) (s : BitVec 1) (m : BitVec 3)  -- MRD_F32 (R293)
  | mrdBf16 (c : BitVec 3) (v b : BitVec 5) (s : BitVec 1) (m : BitVec 3)  -- MRD_BF16 (R293)
  | mrdRaw (c : BitVec 3) (v b : BitVec 5)  -- MRD_RAW (R293)
  | mrdStat (c : BitVec 3) (v : BitVec 5)  -- MRD_STAT (R293)
  | mst (c : BitVec 3) (a b : BitVec 5) (e s : BitVec 1) (m : BitVec 3)  -- MST (R295)
  | mscl (c : BitVec 3) (a : BitVec 5) (r : BitVec 1)  -- MSCL (R294)
  | seedx (d a b : BitVec 5)  -- SEEDX (R301)
  | seedfit (d a b n : BitVec 5)  -- SEEDFIT (R302)
  -- steps without an encoding (spec/95)
  | firingStart (c : Nat)  -- FIRING_START (R38)
  | firingResume (c : Nat)  -- FIRING_RESUME (R49)
  | firingCommit (c b : Nat)  -- FIRING_COMMIT (R42)
  | firingAbort (c b : Nat)  -- FIRING_ABORT (R43)
  | watchdogExpiry (c b : Nat)  -- WATCHDOG_EXPIRY (R53)
  | starvationBoost (c h : Nat)  -- STARVATION_BOOST (R52)
  | trapBankEntry (c : Nat)  -- TRAP_BANK_ENTRY (R50)
  | deferredTrap (c b : Nat)  -- DEFERRED_TRAP (R278)
  | emptyEntryTimeout (c ch : Nat)  -- EMPTY_ENTRY_TIMEOUT (R55)
  | registerWriteback (c b n : Nat)  -- REGISTER_WRITEBACK (R249)
  | messageInjection (c : Nat)  -- MESSAGE_INJECTION (R154)
  | routerForward (n : Nat)  -- ROUTER_FORWARD (R67)
  | boundaryProbeAnswer (n : Nat)  -- BOUNDARY_PROBE_ANSWER (R157)
  | reductionStage (n : Nat)  -- REDUCTION_STAGE (R71)
  | carryAdmit (n : Nat)  -- CARRY_ADMIT (R75)
  | messageDelivery (n : Nat)  -- MESSAGE_DELIVERY (R64)
  | heldMessageTimeout (n : Nat)  -- HELD_MESSAGE_TIMEOUT (R424)
  | channelOpen (n : Nat)  -- CHANNEL_OPEN (R66)
  | creditMessage (n : Nat)  -- CREDIT_MESSAGE (R37)
  | memoryRequest (n : Nat) (refuse : Bool)  -- MEMORY_REQUEST (R232)
  | memoryResponse (n : Nat)  -- MEMORY_RESPONSE (R225)
  | acknowledgement (n : Nat)  -- ACKNOWLEDGEMENT (R110)
  | refusal (n : Nat)  -- REFUSAL (R441)
  | faultNotice (n : Nat)  -- FAULT_NOTICE (R61)
  | configurationMessage (n : Nat)  -- CONFIGURATION_MESSAGE (R96)
  | markerPass (c ch : Nat)  -- MARKER_PASS (R80)
  | snapshotAlignedCapture (c j : Nat)  -- SNAPSHOT_ALIGNED_CAPTURE (R86)
  | alignmentLimitExpiry (c j : Nat)  -- ALIGNMENT_LIMIT_EXPIRY (R87)
  | taskDecrement (c off amt : Nat)  -- TASK_DECREMENT (R104)
  | spliceWavefront (n : Nat)  -- SPLICE_WAVEFRONT (R100)
  | spliceSwitch (c : Nat)  -- SPLICE_SWITCH (R101)
  | mwaitRead (c : Nat)  -- MWAIT_READ (R246)
  | pbwaitRead (c : Nat)  -- PBWAIT_READ (R245)
  | matrixCommandStart (c : Nat)  -- MATRIX_COMMAND_START (R277)
  | matrixStep (c : Nat)  -- MATRIX_STEP (R291)
  | matrixCommandComplete (c : Nat)  -- MATRIX_COMMAND_COMPLETE (R277)
  | copyStart (c : Nat)  -- COPY_START (R315)
  | copyComplete (c : Nat)  -- COPY_COMPLETE (R311)
  | templateFire (c n : Nat)  -- TEMPLATE_FIRE (R318)
  | templateComplete (c n : Nat)  -- TEMPLATE_COMPLETE (R318)
  | lseAccept (c : Nat)  -- LSE_ACCEPT (R320)
  | lseFill (d n : Nat)  -- LSE_FILL (R321)
  | lseRefill (d n : Nat)  -- LSE_REFILL (R321)
  | lseRelocate (d n : Nat)  -- LSE_RELOCATE (R125)
  | lseComplete (d n : Nat)  -- LSE_COMPLETE (R321)
  | kvappComplete (c : Nat)  -- KVAPP_COMPLETE (R323)
  | freeListOperation (c : Nat)  -- FREE_LIST_OPERATION (R327)
  | stateStoreCommand (c : Nat)  -- STATE_STORE_COMMAND (R331)
  | translationWalk (c va : Nat) (wr : Bool)  -- TRANSLATION_WALK (R437)
  | lqDoorbell (q : Nat) (v : BitVec 64)  -- LQ_DOORBELL (R412)
  | lqEnable (q : Nat) (v : BitVec 64)  -- LQ_ENABLE (R411)
  | lqDisable (q : Nat) (v : BitVec 64)  -- LQ_DISABLE (R411)
  | launch (q : Nat)  -- LAUNCH (R421)
  | spliceLaunch (q : Nat)  -- SPLICE_LAUNCH (R384)
  | noopPacket (q : Nat)  -- NOOP_PACKET (R414)
  | imageFetch (q : Nat)  -- IMAGE_FETCH (R420)
  | graphEnd (n : Nat)  -- GRAPH_END (R425)
  | recordRingEnable (q : Nat) (v : BitVec 64)  -- RECORD_RING_ENABLE (R426)
  | recordRingDisable (q : Nat) (v : BitVec 64)  -- RECORD_RING_DISABLE (R426)
  | recordRingHeadWrite (q : Nat) (v : BitVec 64)  -- RECORD_RING_HEAD_WRITE (R427)
  | engineRegionWrite (n : Nat) (v : BitVec 64)  -- ENGINE_REGION_WRITE (R130)
  | freeListHostPush (v : BitVec 64)  -- FREE_LIST_HOST_PUSH (R409)
  | lseHostPost (d : Nat) (v : BitVec 64)  -- LSE_HOST_POST (R410)
  | ccinvWrite (v : BitVec 64)  -- CCINV_WRITE (R420)
  | ptrootWrite (v : BitVec 64)  -- PTROOT_WRITE (R436)
  | retry (v : BitVec 64)  -- RETRY (R446)
  | fail (v : BitVec 64)  -- FAIL (R446)
  | refire (v : BitVec 64)  -- REFIRE (R446)
  | release (v : BitVec 64)  -- RELEASE (R446)
  | kill (v : BitVec 64)  -- KILL (R447)
  | inval (v : BitVec 64)  -- INVAL (R446)
  | step (v : BitVec 64)  -- STEP (R446)
  | run (v : BitVec 64)  -- RUN (R446)
  | bar2Read (off len : Nat)  -- BAR2_READ (R408)
  | bar2Write (off : Nat) (data : List (BitVec 8))  -- BAR2_WRITE (R408)
  | hostAtomicopRequest  -- HOST_ATOMICOP_REQUEST (R407)
  | genericRegisterWrite (off : Nat) (v : BitVec 64)  -- GENERIC_REGISTER_WRITE (R10)
  | resetRelease  -- RESET_RELEASE (R449)
  | bootComplete  -- BOOT_COMPLETE (R449)
  | ident (v : BitVec 64)  -- IDENT (R453)
  | attest (v : BitVec 64)  -- ATTEST (R454)
  | updstage (v : BitVec 64)  -- UPDSTAGE (R453)
  | updactivate (v : BitVec 64)  -- UPDACTIVATE (R455)
  | svncommit (v : BitVec 64)  -- SVNCOMMIT (R455)
  | doze (v : BitVec 64)  -- DOZE (R456)
  | wake (v : BitVec 64)  -- WAKE (R457)
  | wakeComplete  -- WAKE_COMPLETE (R457)
  | replan (v : BitVec 64)  -- REPLAN (R464)
  | rcarm (v : BitVec 64)  -- RCARM (R470)
  | rctrig (v : BitVec 64)  -- RCTRIG (R469)
  | rchostWrite (v : BitVec 64)  -- RCHOST_WRITE (R470)
  | rollCallPin  -- ROLL_CALL_PIN (R470)
  | rcread (v : BitVec 64)  -- RCREAD (R471)
  | inject (v : BitVec 64)  -- INJECT (R467)
  | jread (v : BitVec 64)  -- JREAD (R466)
  | jclear (v : BitVec 64)  -- JCLEAR (R468)
  | sensorSample (n v : Nat)  -- SENSOR_SAMPLE (R459)
  | replanTimer  -- REPLAN_TIMER (R464)
  | voltageOffsetStep (c : Nat)  -- VOLTAGE_OFFSET_STEP (R464)
  | retrainingDue (d : Nat)  -- RETRAINING_DUE (R443)
  | retrainingStart (d : Nat)  -- RETRAINING_START (R443)
  | retrainingForced (d : Nat)  -- RETRAINING_FORCED (R443)
  | retrainingEnd (d : Nat)  -- RETRAINING_END (R443)
  | externalLinkFailure (port far : Nat)  -- EXTERNAL_LINK_FAILURE (R432)
  | illegalInstruction (cause : Nat) (v : BitVec 64)  -- ILLEGAL_INSTRUCTION (R199)
  | unknownCommand (v : BitVec 64)  -- UNKNOWN_COMMAND (R453)
  | badPacket (q : Nat)  -- BAD_PACKET (R414)
  | powerLoss  -- POWER_LOSS (R455)
  deriving DecidableEq, Repr, Inhabited

end Sys2Proof
end

