-- ==== Sys2Proof/Machine/State.lean ====
section
/-!
DEFINITION. The state of one package: two dies of 128 columns, their local stores, stack slices, engines, channels and
routers, GDDR 7, the dispatcher and the Proctor. Plain data throughout. A column is numbered p = 128 × die + 16 × row +
column (R94), which in an unchained package is its column identifier (R16). Sparse tables hold what is many: a key that
is not listed has the table's default. Fields marked (model) are the model's own bookkeeping, not the manual's state.
-/
namespace Sys2Proof.Machine

/-- Why a step can stop with a fault. -/
inductive Fault where
  /-- Raised by no meaning: every event the manual calls a trap or a fault is taken as it describes, as a next state.
  Safe. -/
  | none
  deriving DecidableEq, Repr

/-- Why an instruction has no meaning here. -/
inductive Refusal where
  /-- Raised by an arm of exec whose instruction has no meaning yet. Safe. -/
  | notModelled (mnemonic : String)
  deriving DecidableEq, Repr

/-! ## Registers, results in flight -/

/-- A register of a bank (R47). -/
inductive Reg where
  | x (n : Nat)
  | v (n : Nat)
  | q (n : Nat)
  deriving DecidableEq, Repr

/-- What a pending register waits for (R390, R391): a computed result, or the completion of a command or of a remote
access with that number. -/
inductive PVal where
  | known (w : VWord)
  | await (id : Nat)
  deriving DecidableEq, Repr

/-- A scoreboard entry (R47, R390): the register, its value, the column cycle from which a reader may issue, and the
exception flags and flush count that become visible with it (R176), the band whose firing issued it, which in the trap bank
is the interrupted one (R306). `fresh` (model): issued by the group now issuing. (Log 15: DEDUCED, unsafe) -/
structure Pend where
  reg : Reg
  val : PVal
  due : Nat
  flags : Nat
  ftz : Nat
  band : Nat
  fresh : Bool
  deriving DecidableEq, Repr

/-- A byte of memory anywhere in the package, or of the host (R108, R112). -/
inductive Loc where
  | ls (col off : Nat)
  | gd (pa : Nat)
  | host (pa : Nat)
  deriving DecidableEq, Repr

/-- One byte of a held store; `mask` marks the bits it writes (R116). -/
structure ByteW where
  loc : Loc
  val : Byte
  mask : Byte
  deriving DecidableEq, Repr

/-! ## Messages and channels -/

/-- A message: the header fields of Table 3-1 and the payload bytes after the 8-byte header (R59). -/
structure Msg where
  dest : Nat
  chan : Nat
  kind : Nat
  len : Nat
  seq : Nat
  ctx : Nat
  src : Nat
  ferr : Bool
  pay : List Byte
  deriving DecidableEq, Repr, Inhabited

/-- A message standing in a channel's slots: which band's firing has taken it provisionally (R40), and when it was
delivered (package cycle, and a package-wide order, 0 for an initial message). -/
structure Item where
  msg : Msg
  taken : Option Nat
  tick : Nat
  ord : Nat
  deriving DecidableEq, Repr

/-- An input channel (R62, R237, R377). `slots` 0: unused. `producer` is the column its route names as SRC; `gate` lists
the LSE commands gated on the channel's marker (R83), with true while a marker accepted before the command stands at the
head; `next` is one more than the SEQ of the last message of its route that left the channel (R101). -/
structure Chan where
  slots : Nat
  land : Nat
  producer : Nat
  items : List Item
  gate : List (Nat × Bool)
  next : Nat
  deriving DecidableEq, Repr

def Chan.empty : Chan := { slots := 0, land := 0, producer := 0, items := [], gate := [], next := 0 }

/-- An output of a column, keyed 128 × destination + channel (R37, R60, R66). -/
structure Output where
  opened : Bool
  cap : Nat
  credit : Nat
  paced : Bool
  seq : Nat
  scope : Nat
  deriving DecidableEq, Repr

def Output.empty : Output := { opened := false, cap := 0, credit := 0, paced := false, seq := 0, scope := 0 }

/-- Declared inputs and outputs of a handler (Tables 2-1, 15-3). An output's `count` 0 is unpaced. -/
structure InDecl where
  ch : Nat
  count : Nat
  markers : Nat
  deriving DecidableEq, Repr

structure OutDecl where
  ix : Nat
  dest : Nat
  ch : Nat
  count : Nat
  deriving DecidableEq, Repr

/-- A handler-table entry (R33, Table 15-3). -/
structure Entry where
  col : Nat
  hidx : Nat
  task : Bool
  level : Nat
  budget : Nat
  acc : Nat
  entry : Nat
  arg : Nat
  ins : List InDecl
  outs : List OutDecl
  counter : Nat
  saga : List Word
  sagb : List Word
  deriving DecidableEq, Repr, Inhabited

/-- The two phases of a handler-table entry and the phase bit (R55). -/
structure HSlot where
  phase : Bool
  e0 : Option Entry
  e1 : Option Entry
  deriving DecidableEq, Repr

def HSlot.empty : HSlot := { phase := false, e0 := none, e1 := none }

/-- What one send-buffer entry holds (R41): a message, or a remote store as one list of bytes per 64-byte line in the
order in which its requests are injected, each with the address of its first byte; the address of the group that issued it,
the scope of its .rel annotation, and its number. -/
inductive Send where
  | msg (dest ch kind len : Nat) (pay : List Byte)
  | store (lines : List (Word × List ByteW)) (tepc : Nat) (rel : Option Nat) (id : Nat)
  deriving DecidableEq, Repr

/-- An injection-queue entry (R42, R80, R101). `paid`: a marker copy's credit has been taken. -/
inductive Inj where
  | msg (m : Msg) (scope : Nat)
  | store (lines : List (Word × List ByteW)) (tepc : Nat) (tmsg : Word) (rel : Option Nat) (ctx id : Nat)
  | marker (m : Msg) (scope : Nat) (paid : Bool)
  | wave (m : Msg)
  deriving DecidableEq, Repr

/-! ## Firings and banks -/

/-- A trap that falls due after issue (R278, R307, R434, R441): taken at a later group boundary, in the order `ord` in
which the commands or groups concerned issued (R435). (Log 40: DEDUCED, unsafe) -/
structure DTrap where
  ord : Nat
  cause : Nat
  path : Nat
  tval : Word
  tepc : Nat
  aw : Bool
  deriving DecidableEq, Repr

/-- Why a firing waits (R439, R444): an access that faulted, a token or drain of parked commands (their numbers), a debug
stop. -/
inductive Park where
  | access (cause : Nat) (tval : Word)
  | engine (ids : List Nat)
  | stopped
  deriving DecidableEq, Repr

/-- How far a firing is (R42, R43). -/
inductive Phase where
  | run
  | commit
  | abort (cause path : Nat) (tval : Word) (tepc : Nat) (hold : Bool)
  deriving DecidableEq, Repr

/-- How far a request is: sent; performed with its value and flags; refused; its read uncorrectable. -/
inductive ReqSt where
  | sent
  | done (w : VWord) (flags ftz : Nat)
  | refused
  | bad (cause : Nat) (tval : Word)
  deriving DecidableEq, Repr

/-- A stalled MWAIT or PBWAIT (R245 to R247): the cycle of its issue; the request of the read it has made of a word that is
not its column's own, and what that read has brought, with the cycle in which it was performed. -/
structure Wait where
  since : Nat
  req : Option Nat
  got : Option (ReqSt × Nat)
  deriving DecidableEq, Repr

/-- An acquire or a FENCE that has issued and still orders (R143, R145): the kinds of later events it holds back (1 reads,
2 writes, 4 engine commands, 8 all others), its scope, the requests and the engine commands it waits for, whether it waits
for a host flush. `fresh` (model): issued by the group now issuing, whose other word it does not order (R233). -/
structure Order where
  kinds : Nat
  scope : Nat
  reqs : List Nat
  engs : List Nat
  flush : Bool
  fresh : Bool
  deriving DecidableEq, Repr

/-- A firing in progress (R38 to R43, R53, R56). `jump` says that the group at `pc` is reached by a jump, with the
jumping word (0 for handler entry); `last` is the address of the last group issued; `wait` a stalled MWAIT or PBWAIT;
`orders` the acquires and fences that still order; `lwait` the LSE commands an LFENCE waits for (R147); `drain` says that
later groups wait for everything a W marker waits for (R146); `spent` is the watchdog count; `snap` says that a join fired
it (R86); `trapFrom` (model): what was numbered from here on was issued in the trap bank (R50). -/
structure Firing where
  ent : Entry
  level : Nat
  boost : Bool
  refire : Bool
  trig : Word
  spent : Nat
  begun : Bool
  pc : Nat
  jump : Option Word
  last : Nat
  sent : List (Nat × Nat)
  sends : List Send
  phase : Phase
  deferred : List DTrap
  park : Option Park
  wait : Option Wait
  orders : List Order
  lwait : Option (List Nat)
  drain : Bool
  stepMode : Bool
  snap : Bool
  trapFrom : Nat
  deriving DecidableEq, Repr

/-- The LOOP state of a bank (R216). -/
structure LoopSt where
  start : Nat
  stop : Nat
  n : Nat
  deriving DecidableEq, Repr

/-- One group of an MMA or MMAG after its issue checks (R291, R292): the tile rows, the A operand, the B tiles. -/
structure MGroup where
  sag : Nat
  row0 : Nat
  rows : Nat
  fa : Nat
  acol : Nat
  aoff : Nat
  stride : Nat
  steps : Nat
  k : Nat
  fb : Nat
  handle : Nat
  rt : Nat
  tiles : List Nat
  deriving DecidableEq, Repr

/-- What a matrix command does (R277). -/
inductive MOp where
  | zero (t : Nat) (fl : Bool)
  | prom (t : Nat)
  | mma (t : Nat) (gs : List MGroup)
  | read (t v row seg op mode : Nat) (sat : Bool)
  | store (t off win stride : Nat) (sc : Option Nat) (sat : Bool) (mode : Nat)
  | scale (t acol aoff : Nat) (byCol : Bool)
  | seedx (d rec dst : Nat)
  | seedfit (d tgt win blk n : Nat)
  deriving DecidableEq, Repr

/-- A matrix command: number, issuing band, trigger identifier, group address and slot for deferred traps; how far it is:
whether it has started, and step `step` of group `grp` (the row of an MST, the batch of a SEEDFIT) is next. `from_` is the
column cycle of its issue, `due` the one from which its next step or its completion takes place (R394). `again`: it has just
started or resumed; `promoted`: its next step has promoted the tile early (R181); `reads`: the granules of the local store
that it has read so far, with an uncorrectable one marked at bit 64; `out`: the bytes it has still to write, by granule
(R280); `res`: the value of X(d) once it is known. -/
structure MCmd where
  id : Nat
  band : Nat
  tmsg : Word
  tepc : Nat
  aw : Bool
  op : MOp
  begun : Bool
  grp : Nat
  step : Nat
  from_ : Nat
  due : Nat
  again : Bool
  promoted : Bool
  reads : List (Nat × Nat)
  out : List (Nat × List Byte)
  res : Option Nat
  deriving DecidableEq, Repr

/-- A register bank (R47): four bands, and bank 4 the trap bank, which uses only x, v, q, LOOP and the scoreboard. -/
structure Bank where
  x : List (Nat × Word)
  v : List (Nat × VWord)
  q : List (Nat × Word)
  loop : Option LoopSt
  pend : List Pend
  saga : List (Nat × Word)
  sagb : List (Nat × Word)
  saved : List MCmd
  firing : Option Firing
  deriving DecidableEq, Repr

/-- Log 2: DESIGN CHOICE, unsafe. -/
def Bank.empty : Bank :=
  { x := [], v := [], q := [], loop := none, pend := [], saga := [], sagb := [], saved := [], firing := none }

/-! ## Matrix tiles, handles, engines of a column -/

/-- An accumulator tile (R282): mode, step counter n, poison mask, and its 1024 elements: inner and wide values of an
integer tile, FP56 codes of a float tile. -/
structure Tile where
  fl : Bool
  n : Nat
  poison : Nat
  inner : List (Nat × Int)
  wide : List (Nat × Int)
  fp : List (Nat × Nat)
  deriving DecidableEq, Repr

/-- Log 2: DESIGN CHOICE, unsafe. -/
def Tile.zero : Tile := { fl := false, n := 0, poison := 0, inner := [], wide := [], fp := [] }

/-- A weight handle (Table 4-5), with the source the LSE recorded (R321). `valid` VALID, `moving` MOVING. -/
structure Handle where
  layer : Nat
  form : Nat
  fmt : Nat
  valid : Bool
  moving : Bool
  base : Nat
  len : Nat
  inuse : Nat
  src : Option Nat
  deriving DecidableEq, Repr

def Handle.empty : Handle :=
  { layer := 0, form := 0, fmt := 0, valid := false, moving := false, base := 0, len := 0, inuse := 0, src := none }

/-- What the copy queue carries (R305). `cpy`: raw, compressing or decompressing copies; `lswap`: a descriptor. -/
inductive COp where
  | cpy (dst src : Word) (len : Nat) (stamp : Option Nat) (scope : Nat)
  | lswap (desc : Nat)
  deriving DecidableEq, Repr

/-- How far the bytes of an engine command have moved (R148): the kind of copy once it is known (0 raw, 1 compressing, 2
decompressing), the source granules read so far, by number, the numbers of the destination granules written, and of the
source granules that were uncorrectable. -/
structure Flow where
  mode : Option Nat
  got : List (Nat × List Byte)
  put : List Nat
  bad : List Nat
  deriving DecidableEq, Repr

def Flow.start : Flow := { mode := none, got := [], put := [], bad := [] }

/-- A copy command: its band, number, owning template, group, and how far it is; a parked fault. -/
structure CCmd where
  id : Nat
  band : Nat
  tmpl : Option Nat
  tepc : Nat
  op : COp
  flow : Flow
  parked : Option (Nat × Word)
  deriving DecidableEq, Repr

/-- KV-queue commands (R323, R327). `mine`: this append made the pending entry; `idx`: the popped index. -/
inductive KOp where
  | append (src sid b o z base : Nat) (mine : Bool) (idx : Option Nat)
  | pop
  | push (idx : Nat)
  deriving DecidableEq, Repr

/-- `tab`: an append's block-table write has been made. -/
structure KCmd where
  id : Nat
  band : Nat
  tepc : Nat
  op : KOp
  flow : Flow
  tab : Bool
  parked : Option (Nat × Word)
  deriving DecidableEq, Repr

/-- State-store commands (Table 11-6). -/
inductive SOp where
  | load (area sid layer : Nat)
  | store (area sid layer p : Nat) (snap : Bool)
  | snap (sid layer : Nat)
  | roll (sid layer p : Nat)
  | fork (new sid layer p : Nat)
  | drop (sid : Nat)
  deriving DecidableEq, Repr

/-- A state-store command. `todo`: of a fork or drop that has begun, the layers left, those done, those without a snapshot
to fork from (R331); `res`: the token of a load that has been performed at its home; `reached`: it has parked there, and
later commands on its block wait for it (R330). -/
structure SCmd where
  id : Nat
  band : Nat
  tepc : Nat
  op : SOp
  parked : Option (Nat × Word)
  todo : Option (List Nat × Nat × Nat)
  flow : Flow
  res : Option Nat
  reached : Bool
  deriving DecidableEq, Repr

/-- A KV translation buffer entry (R323 to R326): `idx` none while pending on command `by`. -/
structure Ktb where
  sid : Nat
  b : Nat
  idx : Option Nat
  owner : Nat
  deriving DecidableEq, Repr

/-- A copy template (R317, R318): configured trigger and completion output, the armed descriptor, the running copy (its
number, and the trigger's header), and the token of a copy that has completed. -/
structure Template where
  trig : Nat
  doneKey : Nat
  desc : Option Nat
  running : Option Nat
  hdr : Word
  token : Option Word
  deriving DecidableEq, Repr

def Template.empty : Template :=
  { trig := 128, doneKey := 0, desc := none, running := none, hdr := 0, token := none }

/-- How far a join's snapshot is (R86, R87): the identifier, the channel of the first marker, when its first marker reached
a head, whether all markers had reached theirs within the limit, whether the snapshot handler fired unaligned, whether it
has committed, inputs still awaited, units captured. -/
structure Capture where
  snapId : Nat
  ch : Nat
  since : Nat
  ready : Bool
  fired : Bool
  unal : Bool
  committed : Bool
  awaited : List Nat
  units : Nat
  ovf : Bool
  deriving DecidableEq, Repr

/-- A join (R85, Table 15-6). -/
structure Join where
  jidx : Nat
  sidx : Nat
  area : Nat
  units : Nat
  limit : Nat
  cap : Option Capture
  deriving DecidableEq, Repr

/-- A cached translation (R438): virtual page, page size in bits, physical page, write permission, CMP, H. (Log 120:
DESIGN CHOICE, unsafe) -/
structure Tlb where
  va : Nat
  bits : Nat
  pa : Nat
  w : Bool
  cmp : Bool
  h : Bool
  deriving DecidableEq, Repr

/-- One column (Table 1-2). `running` is the band whose firing owns the issue slot; `lsFlip` and `stkFlip` are the flipped
bits of stored granules; `outs` is keyed 128 × destination + channel; `waves` lists the splice wavefronts received (1024 ×
channel + sender, SEQ) and `nextTag` their context tag; `startAt` is the package cycle before which no firing starts; `busy`
the cycle at which each unit of R392 is free; `retained` the valid handles kept through a doze (R458); `cyFlags`, `cyFtz` and
`cyEarly` what the current cycle has added to SYS.NUMST, SYS.FTZCNT and SYS.EARLYP (R176); `starveAt` the cycle up to which
`starve` counts (R52); `areas` the slice areas (layer, base, length) that a relocation has left and the cycle until which each
stays allocated (R125); `short` the channels whose short pass has been reported (R81); `prevOuts` by context tag the outputs
of graphs that a splice has replaced, for the messages that still stand in the injection queue (R101); `mdone` the matrix
command that completed last, with the cycle of its completion, up to which it counts as incomplete (R279); `engOrders` the
orders that hold back the start of engine commands, by command (R145). -/
structure Column where
  ls : List Host.Cell
  lsFlip : List (Nat × Nat)
  stack : List Host.Cell
  stkFlip : List (Nat × Nat)
  banks : List (Nat × Bank)
  running : Option Nat
  inTrap : Bool
  hold : Word
  cause : Word
  tval : Word
  tepc : Word
  tvec : Word
  tmsg : Word
  cycle : Nat
  snapv : Word
  numst : Nat
  ftzcnt : Nat
  promo : Nat
  earlyp : Nat
  badlist : Word
  wscale : List (Nat × Word)
  htab : List (Nat × Handle)
  tiles : List (Nat × Tile)
  mq : List MCmd
  mrun : Option MCmd
  mfree : Nat
  copyq : List CCmd
  crun : Option CCmd
  csusp : List CCmd
  templates : List (Nat × Template)
  kvq : List KCmd
  ssq : List SCmd
  ktb : List (Nat × Ktb)
  ktbrr : Nat
  chans : List (Nat × Chan)
  outs : List (Nat × Output)
  inj : List Inj
  handlers : List (Nat × HSlot)
  rr : List (Nat × Nat)
  starve : List (Nat × Nat)
  boost : Word
  refire : Word
  stepping : Word
  emptyRep : List Nat
  joins : List Join
  region : Nat
  ctx : Nat
  rseq : Nat
  startAt : Nat
  busy : List (Nat × Nat)
  tlb : List Tlb
  waves : List (Nat × Nat)
  nextTag : Nat
  retained : List Nat
  cyFlags : Nat
  cyFtz : Nat
  cyEarly : Nat
  starveAt : Nat
  areas : List (Nat × Nat × Nat × Nat)
  short : List Nat
  prevOuts : List (Nat × List (Nat × Output))
  mdone : Option (Nat × MCmd)
  engOrders : List (Nat × Order)
  deriving DecidableEq, Repr

/-- A column after its power-up (R380 for what a region load clears; the reset columns of the register tables). (Log
1: DESIGN CHOICE, unsafe; 2: DESIGN CHOICE, unsafe; 3: DESIGN CHOICE, unsafe) -/
def Column.reset : Column :=
  { ls := [], lsFlip := [], stack := [], stkFlip := [], banks := [], running := none, inTrap := false,
    hold := 0, cause := 0, tval := 0, tepc := 0, tvec := 0, tmsg := 0, cycle := 0, snapv := 0,
    numst := 0, ftzcnt := 0, promo := 256, earlyp := 0, badlist := 0, wscale := [], htab := [], tiles := [],
    mq := [], mrun := none, mfree := 0, copyq := [], crun := none, csusp := [], templates := [], kvq := [], ssq := [],
    ktb := [], ktbrr := 0, chans := [], outs := [], inj := [], handlers := [], rr := [], starve := [],
    boost := 0, refire := 0, stepping := 0, emptyRep := [], joins := [], region := 0, ctx := 0,
    rseq := 0, startAt := 0, busy := [], tlb := [], waves := [], nextTag := 0, retained := [],
    cyFlags := 0, cyFtz := 0, cyEarly := 0, starveAt := 0, areas := [], short := [], prevOuts := [],
    mdone := none, engOrders := [] }

/-! ## The fabric -/

/-- One waypoint of a route: a router's column, and whether the route enters its stage there (R377). -/
structure Hop where
  col : Nat
  stage : Bool
  deriving DecidableEq, Repr

/-- A route-filter item (Table 15-5). -/
structure Filter where
  conv : Bool
  trans : Bool
  zr : Bool
  sfmt : Nat
  dfmt : Nat
  mode : Nat
  sat : Bool
  tw : Nat
  e : Nat
  deriving DecidableEq, Repr

/-- A configured route (R68, R377), its owner region, its path of routers, its boundary node with the scope it
widens to; `cast`: a multicast of its source's router emits it, no output of that column feeds it. -/
structure Route where
  region : Nat
  cast : Bool
  dest : Nat
  chan : Nat
  src : Nat
  unp : Bool
  filter : Option Filter
  bnd : Option (Nat × Nat)
  path : List Hop
  deriving DecidableEq, Repr

/-- A message in the network: its route, the routers from the one it stands at on (`path`), the one it came from, whether
its boundary node holds it (0 no, 1 probe sent, 2 answered), the stores of each origin column it is ordered after (R154,
R157: column, number of the first later request), and when it began to wait for a tag at its ejection port (R424). `from_` is
256 + p where the stage of router p emitted it; `done` counts the copies a multicast has made of it. -/
structure Flight where
  msg : Msg
  vc : Nat
  done : Nat
  rt : Route
  from_ : Nat
  path : List Hop
  probe : Nat
  origins : List (Nat × Nat)
  since : Option Nat
  deriving DecidableEq, Repr

/-- A router stage (R70 to R76, Table 15-5) and its run-time state: the routes it emits on, a carry's loop-back route and
its paired steer, the emitted stream's counter, a reduction's waiting messages per member, the stop of R71, a carry's
entries in flight, and per destination of a multicast the slots it opened and the credit not yet passed on (R72). -/
structure Stage where
  region : Nat
  kind : Nat
  group : Nat
  efmt : Nat
  e : Nat
  off : Nat
  lim : Nat
  cmp : Nat
  ctype : Nat
  const : Nat
  outs : List Route
  loop : Option Route
  pair : Nat
  seq : Nat
  waiting : List (Nat × Flight)
  inflight : Nat
  stopped : Bool
  opened : List (Nat × Nat)
  credits : List (Nat × Nat)
  deriving DecidableEq, Repr

/-- What a memory request does at its target (R110, R231, R244). Loads list one location per byte of each element. -/
inductive ReqOp where
  | store (ws : List ByteW)
  | load (locs : List Loc) (fin : Nat) (win tgt : Nat) (scale : Nat) (imm : Word)
  | amo (a : Loc) (op : Nat) (b cas : Word)
  | pbarr (a : Loc) (va : Word) (c : Word)
  deriving DecidableEq, Repr

/-- A remote memory request of a column (R232, R440), of the context `ctx`. `dst`: the pending register; `store` requests have
none. `got`: the bytes of a load already bound, by place (R135); `due`: the column cycle of a response with a fixed latency
(Table 16-2), 0 for none; `when`: the column cycle in which it was performed. -/
structure MemReq where
  id : Nat
  col : Nat
  band : Nat
  rseq : Nat
  tmsg : Word
  tepc : Nat
  aw : Bool
  va : Word
  op : ReqOp
  dst : Option Reg
  st : ReqSt
  got : List (Nat × Byte)
  due : Nat
  when : Nat
  ctx : Nat
  deriving DecidableEq, Repr

/-- Traffic on VC4 and VC5 that is not on a configured route: credit (R37), opens (R66), fault notices (R61), configuration
messages (R96, R100), splice wavefronts (R101). An open carries the tag of the graph it opens for; a `direct` one waits at the
output `key` of column `col` until the column has that tag. -/
structure Credit where
  col : Nat
  key : Nat
  n : Nat
  deriving DecidableEq, Repr

structure Open where
  col : Nat
  key : Nat
  cap : Nat
  credit : Nat
  tag : Nat
  direct : Bool
  deriving DecidableEq, Repr

inductive CfgMsg where
  | entry (col : Nat) (e : Entry)
  deriving DecidableEq, Repr

structure Wave where
  col : Nat
  src : Nat
  chan : Nat
  ctx : Nat
  seq : Nat
  deriving DecidableEq, Repr

/-- A fault record (Table 17-6) before it is written into the ring. -/
structure FaultRec where
  cause : Nat
  path : Nat
  col : Nat
  ctx : Nat
  rseq : Nat
  tval : Word
  tmsg : Word
  tepc : Nat
  deriving DecidableEq, Repr

/-- A bell line (R97): the bound group, phase, and the columns whose arrival flag is set. -/
structure Bell where
  group : Option Nat
  phase : Bool
  flags : List Nat
  deriving DecidableEq, Repr

def Bell.unbound : Bell := { group := none, phase := false, flags := [] }

/-! ## Shared engines -/

/-- An LSE command (R319 to R321). `stamp`: the stamp address, none for a fill of the loader; `owner`: the column whose local
aperture it names. `flow`: how far its bytes have moved; `switched`: its writes have reached the banks, or the relocation has
switched; `bad`: a source read was uncorrectable; `failed`: it ends with status 2; `by_`: the column and band whose swap
posted it. -/
structure LCmd where
  id : Nat
  desc : Nat
  col : Nat
  h : Nat
  stamp : Option Word
  owner : Nat
  started : Bool
  flow : Flow
  bad : Bool
  failed : Bool
  parked : Option (Nat × Word)
  switched : Bool
  by_ : Option (Nat × Nat)
  deriving DecidableEq, Repr

/-- A state block (R330): current unit, position, and snapshots (position, unit) in ascending position order. -/
structure SBlock where
  sid : Nat
  layer : Nat
  pos : Nat
  unit : Nat
  snaps : List (Nat × Nat)
  deriving DecidableEq, Repr

/-! ## The dispatcher -/

/-- Launch-queue registers (Table 17-2), the packet sequence counter, the packet read and not yet dispatched with the cycle
of its dispatch (R424), the region that its PRED has come to mean (R384), the kept completion statuses by sequence number
(R415), and the packets, by count, whose slot has been written since the doorbell that covers it (R413). -/
structure LQueue where
  base : Nat
  log2n : Nat
  loc : Bool
  en : Bool
  pri : Nat
  tail : Nat
  head : Nat
  err : Bool
  seq : Nat
  pkt : Option (List Byte)
  succ : Option Nat
  readAt : Nat
  done : List (Nat × Nat)
  dirty : List Nat
  deriving DecidableEq, Repr

def LQueue.reset : LQueue :=
  { base := 0, log2n := 0, loc := false, en := false, pri := 0, tail := 0, head := 0, err := false,
    seq := 0, pkt := none, succ := none, readAt := 0, done := [], dirty := [] }

/-- What the host gets back for a request to BAR2: data, or a completion with status Unsupported Request (R407, R408). -/
inductive HostCpl where
  | data (bs : List Byte)
  | unsupported
  deriving DecidableEq, Repr

/-- Completion- and fault-queue registers (Table 17-5) and the records that wait (R427). -/
structure RQueue where
  base : Nat
  log2n : Nat
  loc : Bool
  en : Bool
  ie : Bool
  tail : Nat
  phase : Bool
  head : Nat
  waiting : List Nat
  deriving DecidableEq, Repr

def RQueue.reset : RQueue :=
  { base := 0, log2n := 0, loc := false, en := false, ie := false, tail := 0, phase := true, head := 0, waiting := [] }

/-- A loaded region (R90 to R92, R425): `queue` and `seq` name its packet, `tag` is the packet's cookie, `cols` the columns
of its placement, `image` and `map` its image and mapping, `pred` the context tag of the region it splices and `predId` that
region's number, `readAt` the cycle in which its packet was read, `loaded` that in which its injection ended, `subs` the
subgraphs (scope, columns), `bells` the lines (die and line) it binds; `dying`: it has been killed; `msgs` the initial
messages of a splice, for the columns yet to switch. -/
structure Region where
  id : Nat
  ctx : Nat
  queue : Nat
  seq : Nat
  tag : Nat
  cq : Nat
  irq : Bool
  endcnt : Nat
  commits : Nat
  cols : Nat
  image : Nat
  map : Nat
  urgent : Bool
  chained : Bool
  pred : Option Nat
  predId : Nat
  readAt : Nat
  loaded : Nat
  subs : List (Nat × Nat)
  groups : List Nat
  bells : List Nat
  start : Option Nat
  dying : Bool
  msgs : List Nat
  deriving DecidableEq, Repr

/-- A cached image (R420): its address, the bytes checked, die, last use, and whether CCINV has named it while a loaded
region uses it. -/
structure Cached where
  die : Nat
  image : Nat
  bytes : List Byte
  used : Nat
  doomed : Bool
  deriving DecidableEq, Repr

/-! ## The Proctor -/

/-- Power states of Table 19-1. -/
inductive Power where
  | off
  | boot
  | run
  | doze
  | recovery
  deriving DecidableEq, Repr

/-- One journal entry (Table 20-5). -/
structure JEntry where
  seq : Nat
  type : Nat
  cause : Nat
  col : Nat
  exh : Bool
  time : Nat
  val : Word
  deriving DecidableEq, Repr

/-- What Roll Call has latched (R469): the columns, with the requests and LSE commands by which their queues stand, and a number
for what the other blocks latch. -/
structure Latched where
  cols : List (Nat × Column)
  reqs : List MemReq
  lse : List (Nat × List LCmd)
  other : Nat
  deriving DecidableEq, Repr

/-- What the Proctor holds. Persistent: identity and fuses (R450, R451), the two flash slots of each kind and which is active
(R452), the journal (R468), spares used per slice (R462), columns moved to the 2.8 GHz bin (R464), powered time. Since the
reset: the running slots and firmware, the mailbox (R453), telemetry by sensor (R459), thresholds above which a sensor stands
(R460), counters (R461), row errors and rows to be spared (R462), voltage offsets in 0.5 mV from the factory table with their
targets and last steps, columns pending a bin move, measured drift (R464), Roll Call (R469), retraining per die (R443): the
end of the last one, when one fell due, whether it was deferred, pauses with their ends, drift at the last one. Flash slots
are keyed 2 × (kind − 1) + slot: those staged, those erased for it (R453); `activated` lists the kinds whose other slot has been
activated since the reset (R450), `mbrun` the mailbox command in progress (R453), `plan` the re-plan whose slack stands (0: the
factory's), `jbuf` the journal entries not yet in flash (R468); `begun` (model) says that the Proctor has run its ROM. -/
structure Proctor where
  power : Power
  begun : Bool
  cfg : Nat
  step : Nat
  serial : Word
  keyHash : List (List Byte)
  fuseSvn : Nat
  chainPos : Nat
  chainLen : Nat
  slot : List (Nat × Bool)
  active : List (Nat × Bool)
  flash : List (Nat × List Byte)
  staging : List Nat
  erased : List Nat
  activated : List Nat
  cfgRun : Bool
  svn : Nat
  fwver : Word
  autowake : Bool
  boots : Nat
  wake : Bool
  mbcmd : Word
  mbstat : Word
  mbbuf : List Host.Cell
  mbrun : Option Word
  sensors : List (Nat × Nat)
  above : List Nat
  thresh : Word
  alarm : Nat
  counters : List (Nat × Nat)
  rowErr : List (Nat × Nat)
  rowSpared : List (Nat × Nat)
  spareDue : List Nat
  offset : List (Nat × Int)
  target : List (Nat × Int)
  stepAt : List (Nat × Nat)
  moved : List Nat
  pend : List Nat
  drift : List (Nat × Nat)
  replans : Nat
  plan : Nat
  planAt : Nat
  journalRing : List JEntry
  journalProt : List JEntry
  jseq : Nat
  jbuf : List JEntry
  armed : Option Nat
  capture : Option Latched
  rtLast : List (Nat × Nat)
  rtDue : List (Nat × Option Nat)
  rtDefer : List Nat
  rtPause : List Nat
  rtEnd : List (Nat × Nat)
  rtBase : List (Nat × Nat)
  usec : Nat
  deriving DecidableEq, Repr

/-- THRESH at reset (Table 20-1): 1,520; 1,680; 6,500; 650; 25. -/
def threshReset : Word := BitVec.ofNat 64 (1520 + 1680 * 2 ^ 12 + 6500 * 2 ^ 24 + 650 * 2 ^ 37 + 25 * 2 ^ 49)

/-- Log 4: DESIGN CHOICE, unsafe; 19: DESIGN CHOICE, unsafe. -/
def Proctor.reset : Proctor :=
  { power := .boot, begun := false, cfg := 0x60, step := Config.stepping.toNat, serial := Config.serial,
    keyHash := [Config.keyHash 0, Config.keyHash 1], fuseSvn := Config.fusedSvn.toNat, chainPos := 0, chainLen := 0,
    slot := [], active := [], flash := [0, 1, 2, 3].map (fun k => (k, Config.factoryFlash k)), staging := [], erased := [],
    activated := [], cfgRun := false,
    svn := 0, fwver := 0, autowake := false, boots := 0, wake := false, mbcmd := 0, mbstat := 0, mbbuf := [], mbrun := none,
    sensors := [],
    above := [], thresh := threshReset, alarm := 0, counters := [], rowErr := [], rowSpared := [], spareDue := [],
    offset := [], target := [], stepAt := [], moved := [], pend := [], drift := [], replans := 0, plan := 0, planAt := 0,
    journalRing := [], journalProt := [], jseq := 0, jbuf := [], armed := none, capture := none, rtLast := [], rtDue := [],
    rtDefer := [], rtPause := [], rtEnd := [], rtBase := [], usec := 0 }

/-! ## Who moves next, and the whole package -/

/-- An engine at work: a column's copy port, KV engine or state-store command, command n of a die's LSE, a column's matrix
unit. -/
inductive Engine where
  | copy (p : Nat)
  | kv (p : Nat)
  | state (p : Nat)
  | lse (d n : Nat)
  | matrix (p : Nat)
  deriving DecidableEq, Repr

/-- One turn of the schedule (model): a column issues its next group; an internal step or a host or sensor input happens; a
stored bit flips; the host writes its own memory; a task decrement enters the network; the k-th granule left of the n-th
memory request is performed before the rest of it (R135); a column issues its next group, and the granules of that group's
access to the own local store are accessed apart: some read before (`early`), some written after (`late`) the rest (R135);
an engine reads a source granule or writes a destination granule of its command before the command completes (R148); a
granule of a BAR2 access is read, or written with `data`, before the rest of it (R408); BAR2 is resized to 2^n bytes (R407);
a mailbox command is started by a write of MBCMD, and is carried out later (R453); the oldest buffered journal entry goes to
flash (R468). (Log 5: DESIGN CHOICE, unsafe; 12: DESIGN CHOICE, unsafe) -/
inductive Turn where
  | issue (c : Nat)
  | event (i : Instr)
  | flipLs (c granule mask : Nat)
  | flipGd (granule mask : Nat)
  | flipStack (c granule mask : Nat)
  | hostStore (addr : Nat) (data : List Byte)
  | decrement (src dest off amt : Nat)
  | granule (n k : Nat)
  | issueApart (c : Nat)
  | early (c granule : Nat)
  | late (granule : Nat)
  | engine (who : Engine) (wr : Bool) (g : Nat)
  | bar2Granule (g : Nat) (data : Option (List Byte))
  | bar2Size (n : Nat)
  | mbStart (v : Word)
  | mbEnd
  | journalFlush
  deriving DecidableEq, Repr

/-- How the last word or step went (model). -/
inductive Last where
  | issued
  | stalled
  | trapped
  | parked
  | waited
  deriving DecidableEq, Repr

/-- The word now issuing (model): its bits, its group's address, the address of the group after it, whether it is the
A word of a pair. -/
structure WordCtx where
  raw : Nat
  pc : Nat
  next : Nat
  aw : Bool
  deriving DecidableEq, Repr

/-- The package. `flStuck` is the requester (a column with its command's number, or 0x3FF for the driver) whose operation
has stopped at the free-list engine on a page of the ring; `flPushes` the driver's pushes that are there, the first of them
perhaps stopped, and `flParked` the columns whose pops found the ring empty, in order (R29, R328, R439). `cur` is the column
whose word is issuing; `redirect` the target its C word jumps to; `nextId` numbers commands and `nextFree` free values (all
model). `bar2` is the logarithm of the BAR2 size (R407), `barGot` and `barPut` the granules of a BAR2 access made before the
rest of it (R408), `hostReads` what the host has got back, `irqs` the MSI-X vectors raised, `pba` the MSI-X pending bits.
`stages` is keyed 2048 × region + 8 × column + virtual channel. `apart` (model) says that the granules of the issuing
group's own access are accessed apart; `early` lists those already read for a column's next group (column, granule, bytes),
`late` the bytes that a column's last group has still to write (R135). -/
structure State where
  cols : List (Nat × Column)
  gddr : List Host.Cell
  gdFlip : List (Nat × Nat)
  hostMem : List Host.Cell
  flights : List Flight
  routes : List Route
  stages : List (Nat × Stage)
  linkRot : List (Nat × Nat)
  reqs : List MemReq
  credits : List Credit
  opens : List Open
  notices : List FaultRec
  confs : List CfgMsg
  wavefronts : List Wave
  groups : List (Nat × Nat)
  bells : List (Nat × Bell)
  kvbase : Nat
  kvcnt : Nat
  flbase : Nat
  ssbase : Nat
  sslen : Nat
  flHead : Nat
  flCount : Nat
  flPushes : List (Nat × Option (Nat × Word))
  flStuck : Option (Nat × Nat)
  flParked : List Nat
  blocks : List SBlock
  units : List (Nat × List Byte)
  lse : List (Nat × List LCmd)
  lsePost : List (Nat × Nat)
  lseWin : List (Nat × Nat)
  lq : List (Nat × LQueue)
  lqSram : List Host.Cell
  rq : List (Nat × RQueue)
  fqLost : Nat
  urgmap : Nat
  dwin : Nat
  ccinv : Nat
  ptroot : Nat
  fres : Word
  fresWait : List Nat
  msixTable : List Host.Cell
  pba : List Nat
  irqs : List Nat
  hostReads : List HostCpl
  bar2 : Nat
  barGot : List (Nat × List Byte)
  barPut : List (Nat × List Byte)
  cache : List Cached
  dieTlb : List (Nat × List Tlb)
  regions : List Region
  nextRegion : Nat
  retired : List Nat
  lqRr : List (Nat × Nat)
  pktCycle : Nat
  clock : Nat
  proctor : Proctor
  cur : Nat
  agenda : List Turn
  last : Last
  ctx : WordCtx
  redirect : Option Nat
  nextId : Nat
  nextFree : Nat
  apart : Bool
  early : List (Nat × Nat × List Byte)
  late : List (Nat × ByteW)
  deriving DecidableEq, Repr

/-- The MSI-X table at reset: every vector masked. (Log 93: PRESUMED, unsafe) -/
def msixReset : List Host.Cell := (List.range 16).map (fun v => (16 * v + 12, 1))

/-- The package when its reset is released (R449): every register at the value its table states, every memory with
nothing listed, the Proctor in the boot state. (Log 1: DESIGN CHOICE, unsafe; 5: DESIGN CHOICE, unsafe; 118: DESIGN
CHOICE, unsafe) -/
def State.reset : State :=
  { cols := [], gddr := [], gdFlip := [], hostMem := [], flights := [], routes := [], stages := [], linkRot := [],
    reqs := [], credits := [], opens := [], notices := [], confs := [], wavefronts := [], groups := [], bells := [],
    kvbase := 0, kvcnt := 0, flbase := 0, ssbase := 0, sslen := 0, flHead := 0, flCount := 0, flPushes := [],
    flStuck := none, flParked := [],
    blocks := [], units := [], lse := [], lsePost := [], lseWin := [], lq := [], lqSram := [], rq := [], fqLost := 0,
    urgmap := 0, dwin := 0, ccinv := 0, ptroot := 0, fres := 0, fresWait := [], msixTable := msixReset, pba := [], irqs := [],
    hostReads := [], bar2 := 28, barGot := [], barPut := [], cache := [],
    dieTlb := [], regions := [], nextRegion := 1, retired := [], lqRr := [], pktCycle := 0, clock := 0,
    proctor := Proctor.reset,
    cur := 0, agenda := [], last := .issued, ctx := { raw := 0, pc := 0, next := 0, aw := false }, redirect := none,
    nextId := 1, nextFree := 0, apart := false, early := [], late := [] }

end Sys2Proof.Machine
end

