-- ==== Sys2Proof/Machine/Ops.lean ====
section
/-!
DEFINITION. The named operations over columns, registers, the scoreboard and memory; reporting; and, once for the whole
model, taking a trap and returning from one (R43, R50, R219, R433).
-/
namespace Sys2Proof.Machine

/-- The outcome of one meaning. -/
abbrev Out := Host.Outcome State Fault Refusal

/-! ## Columns and banks -/

def State.col (s : State) (p : Nat) : Column := sget Column.reset s.cols p

def State.setCol (s : State) (p : Nat) (c : Column) : State := { s with cols := sput Column.reset s.cols p c }

def State.modCol (s : State) (p : Nat) (f : Column → Column) : State := s.setCol p (f (s.col p))

def Column.bank (c : Column) (b : Nat) : Bank := sget Bank.empty c.banks b

def Column.setBank (c : Column) (b : Nat) (k : Bank) : Column := { c with banks := sput Bank.empty c.banks b k }

def Column.modBank (c : Column) (b : Nat) (f : Bank → Bank) : Column := c.setBank b (f (c.bank b))

/-- The band whose firing owns the issue slot. -/
def Column.band (c : Column) : Nat := c.running.getD 0

/-- The bank whose registers the issuing word names: the band's, or the trap bank, bank 4 (R47, R50). -/
def Column.bankIx (c : Column) : Nat := if c.inTrap then 4 else c.band

def Column.firing (c : Column) (b : Nat) : Option Firing := (c.bank b).firing

def Column.modFiring (c : Column) (b : Nat) (f : Firing → Firing) : Column :=
  c.modBank b (fun k => { k with firing := k.firing.map f })

/-- The issuing column, its current bank, its running firing. -/
def State.me (s : State) : Column := s.col s.cur

def State.modMe (s : State) (f : Column → Column) : State := s.modCol s.cur f

def State.bk (s : State) : Bank := s.me.bank s.me.bankIx

def State.modBk (s : State) (f : Bank → Bank) : State := s.modMe (fun c => c.modBank c.bankIx f)

def State.fire (s : State) : Option Firing := s.me.firing s.me.band

def State.modFire (s : State) (f : Firing → Firing) : State := s.modMe (fun c => c.modFiring c.band f)

/-- The die of a column, and its cluster position (R17). -/
def dieOf (p : Nat) : Nat := p / 128
def cposOf (p : Nat) : Nat := 2 * (p / 16 % 2) + p % 2

/-- The column at cluster position `q` of the cluster of column `p` (R17). -/
def clusterMate (p q : Nat) : Nat := p - 16 * (p / 16 % 2) - p % 2 + 16 * (q / 2) + q % 2

/-! ## Registers (R203): x0 reads zero, q0 all ones, neither is written -/

def Bank.readX (k : Bank) (n : Nat) : Word := if n = 0 then 0 else sget 0 k.x n
def Bank.readV (k : Bank) (n : Nat) : VWord := sget 0 k.v n
def Bank.readQ (k : Bank) (n : Nat) : Word := if n = 0 then BitVec.allOnes 64 else sget 0 k.q n

def Bank.writeX (k : Bank) (n : Nat) (w : Word) : Bank := if n = 0 then k else { k with x := sput 0 k.x n w }
def Bank.writeV (k : Bank) (n : Nat) (w : VWord) : Bank := { k with v := sput 0 k.v n w }
def Bank.writeQ (k : Bank) (n : Nat) (w : Word) : Bank := if n = 0 then k else { k with q := sput 0 k.q n w }

def State.X (s : State) (n : BitVec 5) : Word := s.bk.readX n.toNat
def State.V (s : State) (n : BitVec 5) : VWord := s.bk.readV n.toNat
def State.Q (s : State) (n : BitVec 3) : Word := s.bk.readQ n.toNat

/-- Write a register of a bank; a 512-bit result is truncated to the register's width. -/
def Bank.writeReg (k : Bank) (r : Reg) (w : VWord) : Bank :=
  match r with
  | .x n => k.writeX n (w.setWidth 64)
  | .v n => k.writeV n w
  | .q n => k.writeQ n (w.setWidth 64)

/-! ## The scoreboard (R249, R390) -/

/-- x0 and q0 are never pending. -/
def Reg.exempt : Reg → Bool
  | .x n => n == 0
  | .v _ => false
  | .q n => n == 0

/-- The register is pending from an earlier group. A result of the group now issuing is not seen by its other word
(R193, R396). -/
def Bank.pending (k : Bank) (r : Reg) : Bool := !r.exempt && k.pend.any (fun e => e.reg == r && !e.fresh)

def State.ready (s : State) (rs : List Reg) : Bool := rs.all (fun r => !s.bk.pending r)

/-- The commands of column `c` that are parked on a fault or on an empty free list (R328, R439). -/
def Column.parkedIds (c : Column) : List Nat :=
  ((c.copyq ++ c.csusp ++ c.crun.toList).filter (·.parked.isSome)).map (·.id) ++
  (c.kvq.filter (·.parked.isSome)).map (·.id) ++ (c.ssq.filter (·.parked.isSome)).map (·.id)

/-- Add a result of the issuing word: it is written `lat` cycles after issue (R389), with the flags and flush count it
raises (R176). (Log 15: DEDUCED, unsafe) -/
def State.result (s : State) (r : Reg) (w : VWord) (lat : Nat) (flags : Nat := 0) (ftz : Nat := 0) : State :=
  s.modBk (fun k => { k with pend := k.pend ++
    [{ reg := r, val := .known w, due := s.me.cycle + lat, flags := flags, ftz := ftz, band := s.me.band, fresh := true }] })

/-- Hold a register pending until command or request `id` writes it (R306, R391). -/
def State.awaiting (s : State) (r : Reg) (id : Nat) : State :=
  s.modBk (fun k => { k with pend := k.pend ++
    [{ reg := r, val := .await id, due := 0, flags := 0, ftz := 0, band := s.me.band, fresh := true }] })

/-- Set sticky flags and add to the flush count, which saturates (R174, R175); `now`: in the current cycle (R176). -/
def Column.raise (c : Column) (flags ftz : Nat) (now : Bool := true) : Column :=
  { c with numst := c.numst ||| flags, ftzcnt := min (c.ftzcnt + ftz) 0xFFFFFFFF,
           cyFlags := if now then c.cyFlags ||| flags else c.cyFlags, cyFtz := if now then c.cyFtz + ftz else c.cyFtz }

/-- Write one due entry of the scoreboard of bank `b` and drop it (R249). -/
def Column.retireAt (c : Column) (b n : Nat) : Option Column :=
  let k := c.bank b
  match k.pend[n]? with
  | some { reg := r, val := .known w, due := t, flags := f, ftz := z, band := _, fresh := _ } =>
    if t ≤ c.cycle then
      some ((c.setBank b { k.writeReg r w with pend := dropAt k.pend n }).raise f z (t == c.cycle))
    else none
  | _ => none

/-- Write every due entry of bank `b`, oldest first. `fuel` bounds the number of entries. -/
def Column.retireBank (c : Column) (b : Nat) : Nat → Column
  | 0 => c
  | fuel + 1 =>
    match findIx (fun e => match e.val with
        | .known _ => decide (e.due ≤ c.cycle)
        | .await _ => false) (c.bank b).pend with
    | none => c
    | some n => match c.retireAt b n with
      | none => c
      | some c' => c'.retireBank b fuel

/-- Results due in every bank of the column are written. (Log 15: DEDUCED, unsafe) -/
def Column.retire (c : Column) : Column :=
  [0, 1, 2, 3, 4].foldl (fun c b => c.retireBank b (c.bank b).pend.length) c

/-- The issuing group is complete: its results become pending for later groups. -/
def Bank.age (k : Bank) : Bank := { k with pend := k.pend.map (fun e => { e with fresh := false }) }

/-- Completion of command or request `id` in bank `b`: its register takes `w` (R306), not before cycle `due`; discarded if
the firing aborts, which drops the entry. -/
def Column.complete (c : Column) (b id : Nat) (w : VWord) (flags ftz : Nat := 0) (due : Nat := 0) : Column :=
  c.modBank b (fun k => { k with pend := k.pend.map (fun e =>
    if e.val = .await id then { e with val := .known w, due := max c.cycle due, flags := flags, ftz := ftz } else e) })

/-- A command or request ends without writing its register. -/
def Column.cancel (c : Column) (b id : Nat) : Column :=
  c.modBank b (fun k => { k with pend := k.pend.filter (fun e => e.val != .await id) })

/-- Both banks in which a command's or request's register can be pending: the band's, and the trap bank. -/
def Column.completeReq (c : Column) (b id : Nat) (w : VWord) (fl ftz : Nat) (due : Nat := 0) : Column :=
  (c.complete b id w fl ftz due).complete 4 id w fl ftz due
def Column.cancelReq (c : Column) (b id : Nat) : Column := (c.cancel b id).cancel 4 id

/-! ## How a word went -/

def State.issued (s : State) : Out := .next { s with last := .issued }

/-- The word cannot issue in this cycle; nothing else changes (R192). -/
def State.stalled (s : State) : Out := .next { s with last := .stalled }

/-- Nothing happens: an internal step whose conditions do not hold. -/
def State.idle (s : State) : Out := .next { s with last := .waited }

/-- A host access to BAR0 or BAR2: none reaches the package in the off and recovery states, which present at most the
identity block and the mailbox (R448, R452). -/
def barEvent (f : State → Option State) (s : State) : Out :=
  if s.proctor.power = .off ∨ s.proctor.power = .recovery then s.idle
  else match f s with
    | some t => .next { t with last := .issued }
    | none => s.idle

/-- A step without an encoding: what `f` makes of the state, or nothing when its conditions do not hold. -/
def event (f : State → Option State) (s : State) : Out :=
  match f s with
  | some t => .next { t with last := .issued }
  | none => s.idle

/-- The running firing stops (R439, R328): it waits, its band counts as having nothing runnable. In the trap bank, which
nothing pre-empts (R50), the group stalls. (Log 45: DEDUCED, unsafe) -/
def State.park (s : State) (p : Park) : Out :=
  if s.me.inTrap then s.stalled else
  .next { s.modFire (fun f => { f with park := some p }) with last := .parked }

/-- The parked commands whose tokens some of `rs` wait for. (Log 45: DEDUCED, unsafe) -/
def State.parkedOf (s : State) (rs : List Reg) : List Nat :=
  s.bk.pend.filterMap (fun e => match e.val with
    | .await id => if rs.contains e.reg && !e.fresh && s.me.parkedIds.contains id then some id else none
    | .known _ => none)

/-- A word that needs `rs` not pending: it issues by `k`, or the group stalls. A group that waits for the token of a
parked command parks its firing (R328, R439). -/
def State.need (s : State) (rs : List Reg) (k : Out) : Out :=
  if s.ready rs then k
  else match s.parkedOf rs with
    | [] => s.stalled
    | i :: t => s.park (.engine (i :: t))

/-! ## Memory: bytes anywhere (R108, R112, R8) -/

def State.rd (s : State) : Loc → Byte
  | .ls c o => sget 0 (s.col c).ls o
  | .gd a => sget 0 s.gddr a
  | .host a => sget 0 s.hostMem a

/-- A byte of the local store; a granule written loses its flipped bits. -/
def Column.wrLs (k : Column) (o : Nat) (v : Byte) : Column :=
  { k with ls := sput 0 k.ls o v, lsFlip := sput 0 k.lsFlip (o / 8) 0 }

def Column.wrBytes (k : Column) (o : Nat) : List Byte → Column
  | [] => k
  | b :: t => (k.wrLs o b).wrBytes (o + 1) t

/-- The bytes at a launch-queue ring are written, in host memory or (`loc`) in the launch-queue SRAM: packets in slots that
a doorbell has covered and that have not been read are marked (R413). -/
def LQueue.mark (k : LQueue) (loc : Bool) (a n : Nat) : LQueue :=
  let hit (i : Nat) : Bool :=
    let o := k.base + i % 2 ^ k.log2n * 128
    let o := if loc then o % 0x80000 else o
    decide (o < a + n) && decide (a < o + 128)
  let due := (List.range (um 16 ((k.tail : Int) - k.head))).map (fun i => (k.head + i) % 2 ^ 16)
  if k.en && k.loc == loc then { k with dirty := k.dirty ++ due.filter (fun i => hit i && !k.dirty.contains i) } else k

def markQueues (l : List (Nat × LQueue)) (loc : Bool) (a n : Nat) : List (Nat × LQueue) := l.map (fun q => (q.1, q.2.mark loc a n))

/-- One byte is written; in host memory it may lie in a launch queue's ring (R413). -/
def State.wr (s : State) (l : Loc) (v : Byte) : State :=
  match l with
  | .ls c o => s.modCol c (fun k => k.wrLs o v)
  | .gd a => { s with gddr := sput 0 s.gddr a v, gdFlip := sput 0 s.gdFlip (a / 8) 0 }
  | .host a => { s with hostMem := sput 0 s.hostMem a v, lq := markQueues s.lq false a 1 }

/-- Write the bits of a byte that `mask` marks (R116). (Log 22: DEDUCED, unsafe) -/
def State.wrBits (s : State) (w : ByteW) : State :=
  if w.mask = 0xFF#8 then s.wr w.loc w.val else s.wr w.loc ((w.val &&& w.mask) ||| (s.rd w.loc &&& ~~~ w.mask))

def State.wrAll (s : State) (ws : List ByteW) : State := ws.foldl State.wrBits s

/-- A store to the issuing column's own local store is performed at issue (R225), or, where its granules are accessed apart,
each granule later, before the column goes on (R135). (Log 153: DESIGN CHOICE, unsafe) -/
def State.ownWrites (s : State) (ws : List ByteW) : State :=
  if s.apart then { s with late := s.late ++ ws.map (fun w => (s.cur, w)) } else s.wrAll ws

/-- The late bytes that `f` picks are written. -/
def State.writeLate (s : State) (f : Nat × ByteW → Bool) : State :=
  { (({ s with late := [] } : State).wrAll ((s.late.filter f).map (·.2))) with late := s.late.filter (fun w => !f w) }

/-- A byte of the issuing column's own local store as a load reads it: that of a granule read before the rest, where its
granules are accessed apart (R135). (Log 153: DESIGN CHOICE, unsafe) -/
def State.ownRd (s : State) (l : Loc) : Byte :=
  match s.apart, l with
  | true, .ls c o => match s.early.find? (fun e => e.1 == c && e.2.1 == o / 8) with
    | some e => e.2.2.getD (o % 8) 0
    | none => s.rd l
  | _, _ => s.rd l

/-- A choice among `n` that no rule makes: open, unless there is one thing to choose (R280, R135). (Log 6: DESIGN
CHOICE, safe) -/
def State.choose (s : State) (n : Nat) : Nat × State :=
  if n ≤ 1 then (0, s) else ((Config.freeValue s.nextFree).toNat % n, { s with nextFree := s.nextFree + 1 })

/-- The `n`-th byte after a location. -/
def Loc.add (l : Loc) (n : Nat) : Loc :=
  match l with
  | .ls c o => .ls c (o + n)
  | .gd a => .gd (a + n)
  | .host a => .host (a + n)

/-- Log 1: DESIGN CHOICE, unsafe. -/
def State.rdBytes (s : State) (l : Loc) : Nat → List Byte
  | 0 => []
  | n + 1 => s.rd l :: s.rdBytes (l.add 1) n

/-- Log 22: DEDUCED, unsafe. -/
def State.wrBytes (s : State) (l : Loc) : List Byte → State
  | [] => s
  | b :: t => (s.wr l b).wrBytes (l.add 1) t

/-- A little-endian number of `n` bytes (R8). -/
def State.rdNat (s : State) (l : Loc) (n : Nat) : Nat := leNat (s.rdBytes l n)

def State.wrNat (s : State) (l : Loc) (n v : Nat) : State := s.wrBytes l (leBytes n v)

/-- The raw 32-bit value of local store bytes o to o + 3 (`mem32`). -/
def State.mem32 (s : State) (c o : Nat) : Nat := s.rdNat (.ls c o) 4

/-- Bytes that no rule states. (Log 6: DESIGN CHOICE, safe; 79: DEDUCED, unsafe) -/
def freeBytes (from_ n : Nat) : List Byte := (List.range n).map (fun i => (Config.freeValue (from_ + i)).setWidth 8)

/-! ## Stored errors (R434, R467): a table of flipped bits per 8-byte granule, bits 64 to 71 the check bits -/

/-- The worst error of a byte range: 0 none, 1 corrected, 2 uncorrectable. -/
def flipWorst (t : List (Nat × Nat)) (a n : Nat) : Nat :=
  (t.filter (fun g => decide (a / 8 ≤ g.1) && decide (g.1 * 8 < a + n))).foldl
    (fun w g => max w (min 2 (popcount 72 g.2))) 0

def State.errAt (s : State) (l : Loc) (n : Nat) : Nat :=
  match l with
  | .ls c o => flipWorst (s.col c).lsFlip o n
  | .gd a => flipWorst s.gdFlip a n
  | .host _ => 0

/-- The cause and SYS.TVAL of an uncorrectable read (Table 18-1). -/
def errCause : Loc → Nat × Word
  | .ls c o => (0x305, w64 (o + c * 0x100000))
  | .gd a => (0x304, w64 a)
  | .host a => (0x304, w64 a)

/-! ## Reports, journal and counters -/

/-- The Proctor's counters (Table 20-2): 0, 1 STKCE; 2, 3 STKUE; 4, 5 LSCE; 6, 7 GDCE; 8, 9 SPARED; 10 JLOST. Every one
saturates (R461). -/
def State.count (s : State) (n : Nat) : State :=
  let v := min (sget 0 s.proctor.counters n + 1) 0xFFFFFFFF
  { s with proctor := { s.proctor with counters := sput 0 s.proctor.counters n v } }

def State.modProctor (s : State) (f : Proctor → Proctor) : State := { s with proctor := f s.proctor }

/-- Columns that wait for a bin move and belong to no loaded region change bin. (Log 126: DEDUCED, unsafe) -/
def State.binMoves (s : State) : State :=
  let free := s.proctor.pend.filter (fun c => (s.col c).region == 0)
  s.modProctor (fun p => { p with moved := p.moved ++ free.filter (fun c => !p.moved.contains c),
                                  pend := p.pend.filter (fun c => !free.contains c) })

/-- Class 0x300 (R427, R435, R468): the causes 0x300 to 0x37F of Table 18-1. (Log 91: DEDUCED, unsafe) -/
def class300 (cause : Nat) : Bool := decide (0x300 ≤ cause) && decide (cause ≤ 0x37F)

/-- An entry goes to the journal in flash: the protected area takes types 1 and 2 and class-0x300 causes while it has room; the
ring overwrites its oldest (R468). (Log 110: DESIGN CHOICE, unsafe) -/
def Proctor.enter (p : Proctor) (e : JEntry) : Proctor :=
  let prot := e.type == 1 || e.type == 2 || (e.type == 0 && class300 e.cause)
  if prot && decide (p.journalProt.length < 4096) then { p with journalProt := p.journalProt ++ [e] }
  else
    let ring := p.journalRing ++ [e]
    { p with journalRing := if 61440 < ring.length then ring.drop 1 else ring, alarm := if prot then p.alarm ||| 16 else p.alarm }

/-- The buffered entry that came first goes to flash. -/
def Proctor.flush (p : Proctor) : Proctor :=
  match p.jbuf with
  | [] => p
  | e :: t => { p with jbuf := t }.enter e

/-- A journal entry is made: it waits in the Proctor's buffer of 1,024, or is lost (R468). (Log 110: DESIGN CHOICE,
unsafe) -/
def State.journal (s : State) (type cause col : Nat) (exh : Bool) (val : Word) : State :=
  let p := s.proctor
  if 1024 ≤ p.jbuf.length then s.count 10
  else
    let e : JEntry := { seq := p.jseq, type := type, cause := cause, col := col, exh := exh, time := p.usec, val := val }
    { s with proctor := { p with jseq := p.jseq + 1, jbuf := p.jbuf ++ [e] } }

/-- The latch of an armed Roll Call (R469). (Log 115: DESIGN CHOICE, safe) -/
def State.rollCall (s : State) (source col code : Nat) : State :=
  match s.proctor.armed with
  | none => s
  | some m =>
    if bitN m source then
      let l : Latched := { cols := s.cols, reqs := s.reqs, lse := s.lse, other := s.nextFree }
      { s with proctor := { s.proctor with armed := none, capture := some l }, nextFree := s.nextFree + 1 }.journal 0 0x381 0x3FF false
        (w64 (source + 16 * col + 0x4000 * code))
    else s

/-- The event match of Roll Call on a reported cause (R470). In doze the trigger is refused with 0x382 (R456); its own report
triggers nothing. (Log 114: DESIGN CHOICE, unsafe) -/
def State.matchCause (s : State) (cause col : Nat) : State :=
  match s.proctor.armed with
  | none => s
  | some m =>
    if !(bitN m 42 && decide (fieldN m 41 32 = cause)) then s
    else match s.proctor.power with
      | .run => s.rollCall 3 col 0
      | .doze =>
        if bitN m 3 && decide (cause ≠ 0x382) then
          let f : FaultRec := { cause := 0x382, path := 3, col := 0x3FF, ctx := 0, rseq := 0, tval := Config.freeValue s.nextFree,
                                tmsg := 0, tepc := 0 }
          { s with notices := s.notices ++ [f], nextFree := s.nextFree + 1 }
        else s
      | _ => s

/-- A fault notice travels to the dispatcher (R61); a class-0x300 cause on path 2 is journalled as well (R433). (Log
29: DEDUCED, unsafe) -/
def State.report (s : State) (f : FaultRec) : State := ({ s with notices := s.notices ++ [f] }).matchCause f.cause f.col

/-- A report that is not a trap: path 3, with the trigger identifier and the group of the firing concerned, or 0. (Log
145: DEDUCED, unsafe) -/
def State.reportOnly (s : State) (cause col : Nat) (tval : Word) (tmsg : Word := 0) (tepc : Nat := 0) (rseq : Nat := 0) :
    State :=
  s.report { cause := cause, path := 3, col := col, ctx := if col = 0x3FF then 0 else (s.col col).ctx, rseq := rseq,
             tval := tval, tmsg := tmsg, tepc := tepc }

/-- A report that is journalled as well (Table 18-1). (Log 126: DEDUCED, unsafe) -/
def State.reportBoth (s : State) (cause col : Nat) (tval : Word) (tmsg : Word := 0) (tepc : Nat := 0) : State :=
  (s.reportOnly cause col tval tmsg tepc).journal 0 cause col false tval

/-! ## Taking a trap -/

/-- The path of each aborting cause (Table 18-1): 2 is reported and journalled. -/
def abortPath (cause : Nat) : Nat := if cause = 0x302 ∨ cause = 0x304 ∨ cause = 0x305 then 2 else 1

/-- SYS.CAUSE as written by a trap (Table 8-4). -/
def causeWord (cause path : Nat) : Word := w64 (cause + 0x400 * path)

/-- SYS.TEPC: the group's address and whether the A word trapped. (Log 40: DEDUCED, unsafe) -/
def tepcWord (pc : Nat) (aw : Bool) : Word := w64 (pc % 0x100000 + (if aw then 0x100000 else 0))

/-- What a matrix command has left to write is written. -/
def Column.flushOut (c : Column) (m : MCmd) : Column := m.out.foldl (fun c w => c.wrBytes w.1 w.2) c

/-- The bytes of the destination of a SEEDX or SEEDFIT. -/
def MOp.blockSize : MOp → Nat
  | .seedx _ _ _ => 2048
  | .seedfit _ _ _ _ _ => 64
  | _ => 0

/-- A matrix command whose results an abort leaves: a row of an MST that has been converted, a SEEDX or SEEDFIT that has
begun to write its destination and so is past its last boundary; before that these two write nothing (R281). -/
def MCmd.keepsOut (m : MCmd) : Bool :=
  m.op.blockSize == 0 || (m.res.isSome && decide ((m.out.map (fun w => w.2.length)).sum < m.op.blockSize))

/-- At an abort the band's running matrix command stops at its boundary, with what its steps have written, and its queued
ones are discarded (R281). -/
def Column.dropMatrix (c : Column) (b : Nat) : Column :=
  let c := (c.mrun.toList.filter (fun m => decide (m.band = b) && m.keepsOut)).foldl Column.flushOut c
  let c := { c with mq := c.mq.filter (fun m => decide (m.band ≠ b)), mrun := c.mrun.filter (fun m => decide (m.band ≠ b)) }
  c.modBank b (fun k => { k with saved := [] })

/-- The registers that commands and requests of the firing of band `b` would still write: an abort discards them, in its own
bank and in the trap bank (R43, R152, R306). (Log 46: DEDUCED, unsafe) -/
def Bank.dropAwaits (b : Nat) (k : Bank) : Bank :=
  { k with pend := k.pend.filter (fun e => match e.val with
      | .known _ => true
      | .await _ => decide (e.band ≠ b)) }

/-- The firing of band `b` of column `c` begins to abort (R43): the trap registers are written, tokens to come are
discarded, and the firing waits for its commands; FIRING_ABORT makes the rest. (Log 29: DEDUCED, unsafe; 30: DEDUCED,
unsafe) -/
def Column.beginAbort (c : Column) (b cause path : Nat) (tval : Word) (pc : Nat) (aw hold : Bool) : Column :=
  let c := ((c.dropMatrix b).modBank b (Bank.dropAwaits b)).modBank 4 (Bank.dropAwaits b)
  ({ c with cause := causeWord cause path, tval := tval, tepc := tepcWord pc aw,
            inTrap := if c.running = some b then false else c.inTrap }).modFiring b (fun f =>
    { f with phase := .abort cause path tval (pc % 0x100000) hold, park := none, wait := none, lwait := none,
             deferred := [] })

/-- Cycles pass in which the column issues nothing: what an earlier cycle added to flags and counters is past (R176). -/
def Column.later (c : Column) (n : Nat) : Column := { c with cycle := c.cycle + n, cyFlags := 0, cyFtz := 0, cyEarly := 0 }

/-- The trap bank is entered: 4 cycles after the trapping group, at ENTRY, by a jump (R50, R223). What is numbered from
`from_` on is issued in the trap bank. (Log 24: DEDUCED, unsafe) -/
def Column.enterTrap (c : Column) (cause : Nat) (tval : Word) (pc : Nat) (aw : Bool) (from_ : Nat) : Column :=
  let c := { c with cause := causeWord cause 0, tval := tval, tepc := tepcWord pc aw }
  let c := { c.later 4 with tmsg := (c.firing c.band).elim 0 (·.trig), inTrap := true }
  c.modFiring c.band (fun f =>
    { f with pc := fieldW c.tvec 19 0, jump := some 0, last := fieldW c.tvec 19 0, spent := f.spent + 4, trapFrom := from_ })

/-- A trap at a group of the running firing. `loc`: the cause may take the local path. In the trap bank a second trap
aborts with 0x186 (R50). On the local path with SYS.TVEC.EN the trap bank is entered 4 cycles later, at ENTRY, by a jump
(R50, R223); otherwise the firing aborts. (Log 23: DEDUCED, unsafe) -/
def State.takeTrap (s : State) (cause : Nat) (tval : Word) (loc : Bool) (pc : Nat) (aw : Bool) : State :=
  let c := s.me
  if c.inTrap then
    { s.modMe (fun c => c.beginAbort c.band 0x186 1 (w64 cause) pc aw true) with last := .trapped }
  else if loc && c.tvec.getLsbD 20 then
    { s.modMe (fun c => c.enterTrap cause tval pc aw (s.nextId + 1)) with last := .trapped, nextId := s.nextId + 1 }
  else
    { s.modMe (fun c => c.beginAbort c.band cause (abortPath cause) tval pc aw true) with last := .trapped }

/-- `trap(cause, v)` of Table 7-6, for the word now issuing. (Log 40: DEDUCED, unsafe) -/
def State.trap (s : State) (cause : Nat) (tval : Word) : Out :=
  .next (s.takeTrap cause tval false s.ctx.pc s.ctx.aw)

/-- A cause that takes the local path when SYS.TVEC.EN = 1 (0x203, TRAP). -/
def State.trapLocal (s : State) (cause : Nat) (tval : Word) : Out :=
  .next (s.takeTrap cause tval true s.ctx.pc s.ctx.aw)

/-- SYS.TVAL of a cause that names the offending word (Table 7-5): the word, its address, the reason. -/
def wordTval (raw addr reason : Nat) : Word := w64 (raw + 0x100000000 * (addr % 0x100000) + 0x10000000000000 * reason)

/-- RECV, SEND, PEEK, CHST and END in the trap bank: cause 0x185, recorded directly (R50). (Log 23: DEDUCED, unsafe) -/
def State.trapBankOnly (s : State) (k : Out) : Out :=
  if s.me.inTrap then
    .next { s.modMe (fun c => c.beginAbort c.band 0x185 1 (w64 s.ctx.raw) s.ctx.pc s.ctx.aw true) with last := .trapped }
  else k

/-! ## Returning from the trap bank -/

/-- TRET (R219): the interrupted firing resumes at `pc`, by a jump of word `jump` or in sequence after the group at
`last`. TRET costs 4 cycles (R393), one of them its own. (Log 39: DEDUCED, unsafe) -/
def State.leaveTrap (s : State) (pc : Nat) (jump : Option Word) (last : Nat) : State :=
  s.modMe (fun c => ({ c.later 3 with inTrap := false }).modFiring c.band (fun f =>
    { f with pc := pc, jump := jump, last := last, spent := f.spent + 3 }))

/-! ## LOOP (R216) -/

/-- What a group at `pc`, followed in sequence by `next`, does to an active loop that it does not leave by a jump: it
passes the exit without meeting it, or the loop state, the next address and whether the back edge is taken. (Log 41:
DEDUCED, unsafe) -/
def LoopSt.after (l : LoopSt) (pc next : Nat) : Option (Option LoopSt × Nat × Bool) :=
  if pc < l.stop ∧ l.stop < next then none
  else if next = l.stop then
    if 1 < l.n then some (some { l with n := l.n - 1 }, l.start, true) else some (none, l.stop, false)
  else some (some l, next, false)

/-- A jump without a link ends the loop when its target lies outside the body. -/
def LoopSt.jumpTo (l : LoopSt) (target : Nat) : Option LoopSt :=
  if l.start ≤ target ∧ target < l.stop then some l else none

end Sys2Proof.Machine
end

