-- ==== Sys2Proof/Machine/Operands.lean ====
section
/-!
DEFINITION. Operand forms of the register instructions (R251, R252, Table 9-1): sources are read at issue, the result is
written when its latency is over; lanes of a v register; masks; and the registers each instruction writes (R193).
-/
namespace Sys2Proof.Machine

/-! ## Units that refuse an instruction of their row for some cycles (R392) -/

def unitDiv : Nat := 0
def unitFdiv : Nat := 1
def unitVfdiv : Nat := 2
def unitFold : Nat := 3

/-- The unit accepts an instruction in this cycle. -/
def State.unitFree (s : State) (u : Nat) : Bool := decide (sget 0 s.me.busy u ≤ s.me.cycle)

def State.occupy (s : State) (u n : Nat) : State :=
  s.modMe (fun c => { c with busy := sput 0 c.busy u (c.cycle + n) })

/-- Issue on a unit with occupancy above 1, or stall the group. -/
def State.onUnit (s : State) (u n : Nat) (k : State → Out) : Out :=
  if s.unitFree u then k (s.occupy u n) else s.stalled

/-! ## Scalar forms -/

/-- Form N with two sources: X(d) := f(X(s1), X(s2)). -/
def opXXX (lat : Nat) (f : Word → Word → Word) (d a b : BitVec 5) (s : State) : Out :=
  s.need [.x a.toNat, .x b.toNat, .x d.toNat]
    (s.result (.x d.toNat) ((f (s.X a) (s.X b)).setWidth 512) lat).issued

/-- One source, or a source and an immediate: X(d) := f(X(s1)). -/
def opXX (lat : Nat) (f : Word → Word) (d a : BitVec 5) (s : State) : Out :=
  s.need [.x a.toNat, .x d.toNat] (s.result (.x d.toNat) ((f (s.X a)).setWidth 512) lat).issued

/-- No source: X(d) := w. -/
def opX (lat : Nat) (w : Word) (d : BitVec 5) (s : State) : Out :=
  s.need [.x d.toNat] (s.result (.x d.toNat) (w.setWidth 512) lat).issued

/-- A scalar float result: a 32-bit code zero-extended, with its flags and flush count (R251). -/
def State.fres_ (s : State) (d : BitVec 5) (r : Rnd) (inv lat : Nat) : State :=
  s.result (.x d.toNat) (BitVec.ofNat 512 r.code) lat (r.fl ||| inv) r.ftz

/-- The FP32 value of a register (R251). -/
def fpX (w : Word) : Val := FP32.decode (w.toNat % 2 ^ 32)

/-- Two FP32 sources: X(d) := round(f(a, b), FP32, mode) (R259). -/
def opFFF (lat mode : Nat) (f : Val → Val → Val × Nat) (d a b : BitVec 5) (s : State) : Out :=
  s.need [.x a.toNat, .x b.toNat, .x d.toNat]
    (let e := f (fpX (s.X a)) (fpX (s.X b))
     (s.fres_ d (FP32.round e.1 mode) e.2 lat).issued)

/-- One FP32 source. -/
def opFF (lat mode : Nat) (f : Val → Val × Nat) (d a : BitVec 5) (s : State) : Out :=
  s.need [.x a.toNat, .x d.toNat]
    (let e := f (fpX (s.X a))
     (s.fres_ d (FP32.round e.1 mode) e.2 lat).issued)

/-- ± (a × b) ± c with one rounding (R261). A product of 0 and ∞ is invalid whatever c is. -/
def fma (negP negC : Bool) (mode : Nat) (a b c : Val) : Val × Nat :=
  let p := a.mul b
  let r := Val.add mode (if negP then p.1.neg else p.1) (if negC then c.neg else c)
  (r.1, p.2 ||| r.2)

/-- The FMA form: X(d) is also the addend. -/
def opFMA (negP negC : Bool) (m : BitVec 3) (d a b : BitVec 5) (s : State) : Out :=
  s.need [.x a.toNat, .x b.toNat, .x d.toNat]
    (let e := fma negP negC m.toNat (fpX (s.X a)) (fpX (s.X b)) (fpX (s.X d))
     (s.fres_ d (FP32.round e.1 m.toNat) e.2 4).issued)

/-! ## Lanes (R252, Table 8-6) -/

/-- Width of a lane of type t, the number of lanes, its floating format, and whether it is a floating type. -/
def laneW (t : Nat) : Nat :=
  match t with
  | 0 => 8
  | 1 | 5 => 16
  | _ => 32
def laneN (t : Nat) : Nat := 512 / laneW t
def laneFmt (t : Nat) : Fmt := if t = 5 then BF16 else FP32
def laneFp (t : Nat) : Bool := decide (5 ≤ t)

/-- The lanes of width w of a v register, lane 0 first. -/
def lanesOf (w : Nat) (v : VWord) : List Nat := (List.range (512 / w)).map (fun i => v.toNat / 2 ^ (w * i) % 2 ^ w)

/-- The v register with the given lanes; missing lanes are zero. -/
def packNat (w : Nat) : List Nat → Nat
  | [] => 0
  | x :: t => x % 2 ^ w + 2 ^ w * packNat w t
def pack (w : Nat) (l : List Nat) : VWord := BitVec.ofNat 512 (packNat w l)

/-- Lanes that hold signed integers. -/
def slanes (t : Nat) (v : VWord) : List Int := (lanesOf (laneW t) v).map (sx (laneW t))

/-- Lanes as exact values: integers, or floating values of the lane type. -/
def vlanes (t : Nat) (v : VWord) : List Val :=
  (lanesOf (laneW t) v).map (fun b => if laneFp t then (laneFmt t).decode b else .ofInt (sx (laneW t) b))

/-- A mask bit. -/
def maskBit (q : Word) (i : Nat) : Bool := q.toNat / 2 ^ i % 2 == 1

/-- Bits at or above the lane count are written as zero (R252). -/
def maskTo (n : Nat) (q : Nat) : Word := w64 (q % 2 ^ n)

/-- Join two lists lane by lane. -/
def zipW {α β γ : Type} (f : α → β → γ) : List α → List β → List γ
  | a :: t, b :: u => f a b :: zipW f t u
  | _, _ => []

/-- The flags and flush counts of a list of roundings. -/
def flagsOf (l : List Rnd) : Nat := l.foldl (fun z r => z ||| r.fl) 0
def ftzOf (l : List Rnd) : Nat := l.foldl (fun z r => z + r.ftz) 0

/-- A rounding with the flags of the operation that formed its operand. -/
def Fmt.fin (f : Fmt) (e : Val × Nat) (mode : Nat) : Rnd :=
  let r := f.round e.1 mode
  { r with fl := r.fl ||| e.2 }

/-- A vector result of integer lanes. -/
def State.vres (s : State) (d : BitVec 5) (t : Nat) (l : List Nat) (lat : Nat) : State :=
  s.result (.v d.toNat) (pack (laneW t) l) lat

/-- A vector result of rounded lanes. -/
def State.vresF (s : State) (d : BitVec 5) (t : Nat) (l : List Rnd) (lat : Nat) : State :=
  s.result (.v d.toNat) (pack (laneW t) (l.map (·.code))) lat (flagsOf l) (ftzOf l)

/-- Integer vector form: lane by lane on sint(w), the result modulo 2^w (R264). -/
def opVVVi (lat : Nat) (f : Nat → Int → Int → Int) (d a b : BitVec 5) (t : BitVec 3) (s : State) : Out :=
  s.need [.v a.toNat, .v b.toNat, .v d.toNat]
    (let w := laneW t.toNat
     (s.vres d t.toNat (zipW (fun x y => um w (f w x y)) (slanes t.toNat (s.V a)) (slanes t.toNat (s.V b))) lat).issued)

/-- Floating vector form: lane by lane, one rounding RNE into the lane type (R265). -/
def opVVVf (lat : Nat) (f : Val → Val → Val × Nat) (d a b : BitVec 5) (t : BitVec 3) (s : State) : Out :=
  s.need [.v a.toNat, .v b.toNat, .v d.toNat]
    (s.vresF d t.toNat
      (zipW (fun x y => (laneFmt t.toNat).fin (f x y) 0) (vlanes t.toNat (s.V a)) (vlanes t.toNat (s.V b))) lat).issued

/-- Floating vector form with one source. -/
def opVVf (lat : Nat) (f : Val → Rnd) (d a : BitVec 5) (t : BitVec 3) (s : State) : Out :=
  s.need [.v a.toNat, .v d.toNat] (s.vresF d t.toNat ((vlanes t.toNat (s.V a)).map f) lat).issued

/-- VFMA form: V(d) is also the addend (R266). -/
def opVFMA (negP negC : Bool) (d a b : BitVec 5) (t : BitVec 3) (s : State) : Out :=
  s.need [.v a.toNat, .v b.toNat, .v d.toNat]
    (let l := zipW (fun p z => (laneFmt t.toNat).fin (fma negP negC 0 p.1 p.2 z) 0)
        (zipW (fun x y => (x, y)) (vlanes t.toNat (s.V a)) (vlanes t.toNat (s.V b))) (vlanes t.toNat (s.V d))
     (s.vresF d t.toNat l 8).issued)

/-! ## The registers an instruction writes (R193): every destination its description names, tokens included -/

def writesOf : Instr → List Reg
  | .sysrd d _ | .jalr d _ _ | .ldch d _ _ | .ldB d _ _ | .ldH d _ _ | .ldW d _ _ | .ldD d _ _ | .lduB d _ _
  | .lduH d _ _ | .lduW d _ _ | .ldfF32 d _ _ | .ldfBf16 d _ _ | .recv d _ | .peek d _ _ | .chst d _ | .bellw d _
  | .bellt d _ | .pbarr d _ _ _ | .pbwait d _ _ _ | .mwait d _ _ _ _ _ | .cpy d _ _ _ | .cpyS d _ _ _ | .lswap d _
  | .kvapp d _ _ _ | .flpop d | .flpush d _ | .ssld d _ _ | .ssst d _ _ _ | .ssnap d _ | .ssroll d _ | .ssfork d _ _
  | .ssdrop d _ | .acvtOff d _ | .acvtG d _ | .acvtL d _ | .acvtC d _ | .acvtLc d _ | .acvtCl d _ | .atest d _
  | .amoAdd d _ _ _ | .amoAnd d _ _ _ | .amoOr d _ _ _ | .amoXor d _ _ _ | .amoMin d _ _ _ | .amoMax d _ _ _
  | .amoSwap d _ _ _ | .amoCas d _ _ _
  | .add d _ _ | .sub d _ _ | .and d _ _ | .or d _ _ | .xor d _ _ | .shl d _ _ | .shr d _ _ | .sar d _ _ | .slt d _ _
  | .sltu d _ _ | .min d _ _ | .max d _ _ | .minu d _ _ | .maxu d _ _ | .clz d _ | .popc d _ | .andn d _ _
  | .addi d _ _ | .andi d _ _ | .ori d _ _ | .xori d _ _ | .shli d _ _ | .shri d _ _ | .sari d _ _ | .slti d _ _
  | .sltiu d _ _ | .mul d _ _ | .mulhs d _ _ | .mulhu d _ _ | .mulhm d _ _ | .mul32s d _ _ | .divs d _ _ | .divu d _ _
  | .rems d _ _ | .remu d _ _ | .li d _ | .lis d _ | .fadd d _ _ _ | .fsub d _ _ _ | .fmul d _ _ _ | .fdiv d _ _ _
  | .fsqrt d _ _ | .fmin d _ _ | .fmax d _ _ | .fabs d _ | .fneg d _ | .fmadd d _ _ _ | .fmsub d _ _ _
  | .fnmadd d _ _ _ | .fnmsub d _ _ _ | .fcmp d _ _ _ | .fcvtF32L d _ _ _ | .fcvtF32Lu d _ _ _ | .fcvtLF32 d _ _
  | .fcvtLuF32 d _ _ | .fcvtWF32 d _ _ | .fcvtBf16F32 d _ _ _ | .fcvtF32Bf16 d _ | .qgetx d _ | .vredAdd d _ _ _
  | .vredMax d _ _ _ | .vredMin d _ _ _ | .vredMaxi d _ _ _ | .vxtr d _ _ _ | .vpopq d _ _ | .seedx d _ _
  | .seedfit d _ _ _ => [.x d.toNat]
  | .jal _ => [.x 31]
  | .vld d _ _ _ _ | .vlds d _ _ _ _ | .vgath d _ _ _ _ | .vadd d _ _ _ | .vsub d _ _ _ | .vadds d _ _ _
  | .vsubs d _ _ _ | .vmul d _ _ _ | .vmulh d _ _ _ | .vmin d _ _ _ | .vmax d _ _ _ | .vand d _ _ _ | .vor d _ _ _
  | .vxor d _ _ _ | .vshl d _ _ _ | .vshr d _ _ _ | .vsar d _ _ _ | .vabs d _ _ | .vfadd d _ _ _ | .vfsub d _ _ _
  | .vfmul d _ _ _ | .vfdiv d _ _ _ | .vfsqrt d _ _ | .vfmin d _ _ _ | .vfmax d _ _ _ | .vfabs d _ _ | .vfneg d _ _
  | .vfmadd d _ _ _ | .vfmsub d _ _ _ | .vfnmadd d _ _ _ | .vfnmsub d _ _ _ | .vsel d _ _ _ _ | .vbcastX d _ _
  | .vbcastLane d _ _ _ | .vperm d _ _ _ | .vexp2 d _ _ | .vrcp d _ _ | .vrsq d _ _ | .vscan d _ _ _ _ _
  | .vhad d _ _ _ | .vcvt d _ _ _ _ _ => [.v d.toNat]
  | .vsumkAcc d _ _ | .vsumkScale d _ _ | .vsumkFold d _ | .vsumkFin d _ => [.v d.toNat, .v (d.toNat + 1)]
  | .mrdW _ v _ | .mrdF32 _ v _ _ _ | .mrdBf16 _ v _ _ _ | .mrdRaw _ v _ | .mrdStat _ v => [.v v.toNat]
  | .vcmp q _ _ _ _ | .qand q _ _ | .qor q _ _ | .qxor q _ _ | .qandn q _ _ | .qsetx q _ => [.q q.toNat]
  | _ => []

/-- Both words write one register that is neither x0 nor q0 (R193). -/
def sameDest (i j : Instr) : Bool := (writesOf i).any (fun r => !r.exempt && (writesOf j).contains r)

end Sys2Proof.Machine
end

