-- ==== Sys2Proof/Machine/Crypto.lean ====
section
/-!
DEFINITION. The public algorithms that the rules of signed images name and do not define: SHA-384, and the verification of
ECDSA signatures on brainpoolP384r1 (R451, R454).
-/
namespace Sys2Proof.Machine

/-! ## SHA-384 (R451). Its tables and steps are the hash standard's. -/

/-- A byte string as a big-endian number. -/
def beNat (l : List Byte) : Nat := l.foldl (fun n b => 256 * n + b.toNat) 0

/-- The n big-endian bytes of a number. -/
def beBytes (n v : Nat) : List Byte := (List.range n).map (fun i => BitVec.ofNat 8 (v / 2 ^ (8 * (n - 1 - i))))

/-- The initial hash value. -/
def shaStart : List Nat :=
  [0xCBBB9D5DC1059ED8, 0x629A292A367CD507, 0x9159015A3070DD17, 0x152FECD8F70E5939] ++
  [0x67332667FFC00B31, 0x8EB44A8768581511, 0xDB0C2E0D64F98FA7, 0x47B5481DBEFA4FA4]

/-- The constants of the 80 rounds. -/
def shaRounds : List Nat :=
  [0x428A2F98D728AE22, 0x7137449123EF65CD, 0xB5C0FBCFEC4D3B2F, 0xE9B5DBA58189DBBC] ++
  [0x3956C25BF348B538, 0x59F111F1B605D019, 0x923F82A4AF194F9B, 0xAB1C5ED5DA6D8118] ++
  [0xD807AA98A3030242, 0x12835B0145706FBE, 0x243185BE4EE4B28C, 0x550C7DC3D5FFB4E2] ++
  [0x72BE5D74F27B896F, 0x80DEB1FE3B1696B1, 0x9BDC06A725C71235, 0xC19BF174CF692694] ++
  [0xE49B69C19EF14AD2, 0xEFBE4786384F25E3, 0x0FC19DC68B8CD5B5, 0x240CA1CC77AC9C65] ++
  [0x2DE92C6F592B0275, 0x4A7484AA6EA6E483, 0x5CB0A9DCBD41FBD4, 0x76F988DA831153B5] ++
  [0x983E5152EE66DFAB, 0xA831C66D2DB43210, 0xB00327C898FB213F, 0xBF597FC7BEEF0EE4] ++
  [0xC6E00BF33DA88FC2, 0xD5A79147930AA725, 0x06CA6351E003826F, 0x142929670A0E6E70] ++
  [0x27B70A8546D22FFC, 0x2E1B21385C26C926, 0x4D2C6DFC5AC42AED, 0x53380D139D95B3DF] ++
  [0x650A73548BAF63DE, 0x766A0ABB3C77B2A8, 0x81C2C92E47EDAEE6, 0x92722C851482353B] ++
  [0xA2BFE8A14CF10364, 0xA81A664BBC423001, 0xC24B8B70D0F89791, 0xC76C51A30654BE30] ++
  [0xD192E819D6EF5218, 0xD69906245565A910, 0xF40E35855771202A, 0x106AA07032BBD1B8] ++
  [0x19A4C116B8D2D0C8, 0x1E376C085141AB53, 0x2748774CDF8EEB99, 0x34B0BCB5E19B48A8] ++
  [0x391C0CB3C5C95A63, 0x4ED8AA4AE3418ACB, 0x5B9CCA4F7763E373, 0x682E6FF3D6B2B8A3] ++
  [0x748F82EE5DEFB2FC, 0x78A5636F43172F60, 0x84C87814A1F0AB72, 0x8CC702081A6439EC] ++
  [0x90BEFFFA23631E28, 0xA4506CEBDE82BDE9, 0xBEF9A3F7B2C67915, 0xC67178F2E372532B] ++
  [0xCA273ECEEA26619C, 0xD186B8C721C0C207, 0xEADA7DD6CDE0EB1E, 0xF57D4F7FEE6ED178] ++
  [0x06F067AA72176FBA, 0x0A637DC5A2C898A6, 0x113F9804BEF90DAE, 0x1B710B35131C471B] ++
  [0x28DB77F523047D84, 0x32CAAB7B40C72493, 0x3C9EBE0A15C9BEBC, 0x431D67C49C100D4C] ++
  [0x4CC5D4BECB3E42B6, 0x597F299CFC657E2A, 0x5FCB6FAB3AD6FAEC, 0x6C44198C4A475817]

/-- Rotation to the right of a 64-bit number. -/
def ror64 (n x : Nat) : Nat := x / 2 ^ n + x % 2 ^ n * 2 ^ (64 - n)

/-- The message schedule, newest word first. -/
def shaSchedule : Nat → List Nat → List Nat
  | 0, w => w
  | n + 1, w =>
    let g (i : Nat) : Nat := w.getD i 0
    let s0 := ror64 1 (g 14) ^^^ ror64 8 (g 14) ^^^ (g 14 / 2 ^ 7)
    let s1 := ror64 19 (g 1) ^^^ ror64 61 (g 1) ^^^ (g 1 / 2 ^ 6)
    shaSchedule n ((s1 + g 6 + s0 + g 15) % 2 ^ 64 :: w)

/-- One round with a constant and a schedule word. -/
def shaRound (v : List Nat) (kw : Nat) : List Nat :=
  match v with
  | [a, b, c, d, e, f, g, h] =>
    let t1 := h + (ror64 14 e ^^^ ror64 18 e ^^^ ror64 41 e) + ((e &&& f) ^^^ ((2 ^ 64 - 1 - e) &&& g)) + kw
    let t2 := (ror64 28 a ^^^ ror64 34 a ^^^ ror64 39 a) + ((a &&& b) ^^^ (a &&& c) ^^^ (b &&& c))
    [(t1 + t2) % 2 ^ 64, a, b, c, (d + t1) % 2 ^ 64, e, f, g]
  | v => v

/-- One block of 128 bytes. -/
def shaBlock (h : List Nat) (b : List Byte) : List Nat :=
  let w := (shaSchedule 64 ((List.range 16).reverse.map (fun i => beNat ((b.drop (8 * i)).take 8)))).reverse
  let v := (zipW (fun k w => k + w) shaRounds w).foldl shaRound h
  zipW (fun x y => (x + y) % 2 ^ 64) h v

/-- SHA-384 of a byte string. (Log 7: PRESUMED, unsafe) -/
def sha384 (m : List Byte) : List Byte :=
  let blocks := (m.length + 17 + 127) / 128
  let p := m ++ [0x80#8] ++ List.replicate (128 * blocks - m.length - 17) 0 ++ beBytes 16 (8 * m.length)
  ((List.range blocks).foldl (fun h i => shaBlock h ((p.drop (128 * i)).take 128)) shaStart).take 6 |>.flatMap (beBytes 8)

/-! ## ECDSA on brainpoolP384r1 (R451). The curve's parameters are those of RFC 5639. -/

def curveP : Nat := 0x8CB91E82A3386D280F5D6F7E50E641DF152F7109ED5456B412B1DA197FB71123ACD3A729901D1A71874700133107EC53
def curveA : Nat := 0x7BC382C63D8C150C3C72080ACE05AFA0C2BEA28E4FB22787139165EFBA91F90F8AA5814A503AD4EB04A8C7DD22CE2826
def curveB : Nat := 0x04A8C7DD22CE28268B39B55416F0447C2FB77DE107DCD2A62E880EA53EEB62D57CB4390295DBC9943AB78696FA504C11
def curveQ : Nat := 0x8CB91E82A3386D280F5D6F7E50E641DF152F7109ED5456B31F166E6CAC0425A7CF3AB6AF6B7FC3103B883202E9046565

/-- A point in Jacobian coordinates; `z` = 0 is the neutral element. -/
structure CPoint where
  x : Nat
  y : Nat
  z : Nat
  deriving DecidableEq, Repr

def curveG : CPoint :=
  { x := 0x1D1C64F068CF45FFA2A63A81B7C13F6B8847A3E77EF14FE3DB7FCAFE0CBD10E8E826E03436D646AAEF87B2E247D4AF1E,
    y := 0x8ABE1D7520F9C2A45CB1EB8E95CFD55262B70B29FEEC5864E19C054FF99129280E4646217791811142820341263C5315,
    z := 1 }

/-- Difference modulo the field's prime. -/
def subP (a b : Nat) : Nat := (a + (curveP - b % curveP)) % curveP

def CPoint.double (a : CPoint) : CPoint :=
  if a.z = 0 ∨ a.y = 0 then { x := 1, y := 1, z := 0 }
  else
    let yy := a.y * a.y % curveP
    let zz := a.z * a.z % curveP
    let s := 4 * a.x * yy % curveP
    let m := (3 * a.x * a.x + curveA * (zz * zz)) % curveP
    let x := subP (m * m) (2 * s)
    { x := x, y := subP (m * subP s x) (8 * yy * yy), z := 2 * a.y * a.z % curveP }

def CPoint.add (a b : CPoint) : CPoint :=
  if a.z = 0 then b
  else if b.z = 0 then a
  else
    let za := a.z * a.z % curveP
    let zb := b.z * b.z % curveP
    let u := a.x * zb % curveP
    let v := b.x * za % curveP
    let s := a.y * zb % curveP * b.z % curveP
    let t := b.y * za % curveP * a.z % curveP
    if u = v then (if s = t then a.double else { x := 1, y := 1, z := 0 })
    else
      let h := subP v u
      let r := subP t s
      let hh := h * h % curveP
      let hhh := hh * h % curveP
      let x := subP (r * r) (hhh + 2 * u * hh)
      { x := x, y := subP (r * subP (u * hh) x) (s * hhh), z := h * a.z % curveP * b.z % curveP }

/-- The bits of a 384-bit number, highest first. -/
def bits384 (n : Nat) : List Bool := (List.range 384).reverse.map (fun i => n / 2 ^ i % 2 == 1)

def CPoint.times (n : Nat) (a : CPoint) : CPoint :=
  (bits384 n).foldl (fun r b => let d := r.double
                                if b then d.add a else d) { x := 1, y := 1, z := 0 }

/-- The inverse modulo the group's order, a prime. -/
def invQ (a : Nat) : Nat :=
  (bits384 (curveQ - 2)).foldl (fun r b => let d := r * r % curveQ
                                           if b then d * a % curveQ else d) 1

/-- The public key, an uncompressed point: 0x04, then X and Y (Table 19-3). -/
def keyPoint (k : List Byte) : Option CPoint :=
  let x := beNat ((k.drop 1).take 48)
  let y := beNat ((k.drop 49).take 48)
  if k.length = 97 ∧ k.head? = some 0x04#8 ∧ x < curveP ∧ y < curveP ∧
      y * y % curveP = (x * x * x + curveA * x + curveB) % curveP then some { x := x, y := y, z := 1 }
  else none

/-- Verification: public key, digest, signature; r and s big-endian, 48 bytes each (R451). (Log 7: PRESUMED, unsafe) -/
def verifySig (key digest sig : List Byte) : Bool :=
  let r := beNat (sig.take 48)
  let s := beNat ((sig.drop 48).take 48)
  match keyPoint key with
  | none => false
  | some k =>
    if r = 0 ∨ curveQ ≤ r ∨ s = 0 ∨ curveQ ≤ s then false
    else
      let w := invQ s
      let t := (curveG.times (beNat digest * w % curveQ)).add (k.times (r * w % curveQ))
      let zz := t.z * t.z % curveP
      t.z != 0 && [r, r + curveQ].any (fun x => decide (x < curveP) && x * zz % curveP == t.x)

end Sys2Proof.Machine
end

