-- ==== Sys2Proof/Machine/Translate.lean ====
section
/-!
DEFINITION. Translation of global addresses (R436 to R439): the four-level walk, the translation caches, and what a
requester does that faults.
-/
namespace Sys2Proof.Machine

/-- GDDR 7 capacity in bytes (Table 0-1): 48 GiB for 8256-048, 96 GiB for 8256-096. (Log 4: DESIGN CHOICE, unsafe) -/
def State.capacity (s : State) : Nat := if s.proctor.cfg = 0x30 then 48 * 2 ^ 30 else 96 * 2 ^ 30

/-- Page-offset bits of a leaf at a level, and the index of an address at that level (Table 18-3). -/
def lvlBits (l : Nat) : Nat :=
  match l with
  | 0 => 30
  | 1 => 25
  | 2 => 21
  | _ => 16
def lvlIndex (l va : Nat) : Nat :=
  match l with
  | 0 => va / 2 ^ 30 % 2 ^ 17
  | 1 => va / 2 ^ 25 % 32
  | 2 => va / 2 ^ 21 % 16
  | _ => va / 2 ^ 16 % 32

/-- What a walk ends with: a translation, or a cause and the level at which it stopped. -/
inductive WalkRes where
  | leaf (t : Tlb)
  | fault (cause lvl : Nat)
  deriving DecidableEq, Repr

/-- `translate` of R437 from a table at `t`, over the levels left. -/
def State.walkFrom (s : State) (va : Nat) (wr : Bool) : List Nat → Nat → WalkRes
  | [], _ => .fault 0x10A 3
  | l :: ls, t =>
    let e := s.rdNat (.gd (t + 8 * lvlIndex l va)) 8
    let pa := e / 2 ^ 8 * 2 ^ 8
    let size := 2 ^ lvlBits l
    if bitN e 0 = false then .fault 0x108 l
    else if fieldN e 7 5 ≠ 0 then .fault 0x10A l
    else if bitN e 1 then
      if pa % size ≠ 0 ∨ (bitN e 4 = true ∧ bitN e 3 = true) then .fault 0x10A l
      else if bitN e 4 = false ∧ s.capacity < pa + size then .fault 0x10A l
      else if wr && !bitN e 2 then .fault 0x109 l
      else .leaf { va := va / size * size, bits := lvlBits l, pa := pa, w := bitN e 2, cmp := bitN e 3, h := bitN e 4 }
    else if ls = [] ∨ bitN e 2 = true ∨ bitN e 3 = true ∨ bitN e 4 = true then .fault 0x10A l
    else if s.capacity ≤ pa then .fault 0x10A l
    else s.walkFrom va wr ls pa

/-- The whole walk from PTROOT (Table 18-2). -/
def State.walk (s : State) (va : Nat) (wr : Bool) : WalkRes :=
  if s.ptroot % 2 = 0 then .fault 0x108 0 else s.walkFrom va wr [0, 1, 2, 3] (s.ptroot / 2 ^ 20 * 2 ^ 20)

/-- The level whose leaves have pages of 2^bits bytes. -/
def lvlOf (bits : Nat) : Nat := if bits = 30 then 0 else if bits = 25 then 1 else if bits = 21 then 2 else 3

/-- A cached translation of an address: the column's cache, then its die's (R438). -/
def State.cached (s : State) (p va : Nat) : Option Tlb :=
  ((s.col p).tlb ++ sget [] s.dieTlb (dieOf p)).find? (fun t => decide (va / 2 ^ t.bits = t.va / 2 ^ t.bits))

/-- A translation by cache or by walk. -/
def State.translate (s : State) (p va : Nat) (wr : Bool) : WalkRes :=
  match s.cached p va with
  | some t => if wr && !t.w then .fault 0x109 (lvlOf t.bits) else .leaf t
  | none => s.walk va wr

/-- A cached translation of a die (R438). (Log 73: DEDUCED, safe) -/
def State.cachedE (s : State) (d va : Nat) : Option Tlb :=
  (sget [] s.dieTlb d).find? (fun t => decide (va / 2 ^ t.bits = t.va / 2 ^ t.bits))

/-- A translation for an engine of die `d`, which uses its die's cache only (R438). (Log 73: DEDUCED, safe) -/
def State.translateE (s : State) (d va : Nat) (wr : Bool) : WalkRes :=
  match s.cachedE d va with
  | some t => if wr && !t.w then .fault 0x109 (lvlOf t.bits) else .leaf t
  | none => s.walk va wr

/-- The location a translation gives: a host leaf is a host bus address, a device leaf a device physical address. -/
def Tlb.loc (t : Tlb) (va : Nat) : Loc :=
  if t.h then .host (t.pa + va % 2 ^ t.bits) else .gd (t.pa + va % 2 ^ t.bits)

/-- SYS.TVAL of 0x108, 0x109 and 0x10A (R437). Requesters: 0 core, 1 copy port, 2 copy template, 3 KV, 4 state store,
5 free list, 6 LSE. -/
def walkTval (va lvl : Nat) (wr : Bool) (req : Nat) : Word :=
  w64 (va + lvl * 2 ^ 48 + b2n wr * 2 ^ 50 + req * 2 ^ 51)

/-- A completed walk enters the caches: 64 entries per column, 4096 per die; an entry with V = 0 never enters. (Log
120: DESIGN CHOICE, unsafe) -/
def State.fill (s : State) (p : Nat) (t : Tlb) : State :=
  let s := s.modCol p (fun c => { c with tlb := (t :: c.tlb).take 64 })
  { s with dieTlb := sput [] s.dieTlb (dieOf p) ((t :: sget [] s.dieTlb (dieOf p)).take 4096) }

/-- The GDDR 7 addresses of the entries that a walk reads, over the levels left. -/
def State.walkReads (s : State) (va : Nat) : List Nat → Nat → List Nat
  | [], _ => []
  | l :: ls, t =>
    let a := t + 8 * lvlIndex l va
    let e := s.rdNat (.gd a) 8
    if bitN e 0 = true ∧ fieldN e 7 5 = 0 ∧ bitN e 1 = false then a :: s.walkReads va ls (e / 2 ^ 8 * 2 ^ 8) else [a]

/-- The corrected errors of the entries that a walk reads are counted (R461). (Log 123: DEDUCED, unsafe) -/
def State.countWalk (s : State) (va : Nat) : State :=
  (if s.ptroot % 2 = 0 then [] else s.walkReads va [0, 1, 2, 3] (s.ptroot / 2 ^ 20 * 2 ^ 20)).foldl (fun t a =>
    if s.errAt (.gd a) 8 = 1 then t.count (6 + b2n (decide (s.capacity / 2 ≤ a))) else t) s

/-- TRANSLATION_WALK: the walk for a column's access ends; a translation is cached, a fault is left to its requester. -/
def evTranslationWalk (p va : Nat) (wr : Bool) (s : State) : Option State :=
  let t := s.countWalk (va % 2 ^ 47)
  match s.walk (va % 2 ^ 47) wr with
  | .leaf e => some (t.fill p e)
  | .fault _ _ => some t

def execTranslationWalk (c va : Nat) (wr : Bool) (s : State) : Out := event (evTranslationWalk c va wr) s

/-! ## The state backing region (R332): loads in it return open values, stores into it corrupt the states they meet -/

def SBlock.units (b : SBlock) : List Nat := b.unit :: b.snaps.map (·.2)

/-- The units in use, with where each lies for column p. -/
def State.unitLocs (s : State) (p : Nat) : List (Nat × Loc) :=
  ((s.blocks.flatMap SBlock.units).eraseDups).filterMap (fun u =>
    match s.translate p (s.ssbase + 4096 * u) false with
    | .leaf t => some (u, t.loc (s.ssbase + 4096 * u))
    | .fault _ _ => none)

/-- A byte lies in the 4 KiB at a location. -/
def Loc.within (l a : Loc) : Bool :=
  match l, a with
  | .gd x, .gd y => decide (y ≤ x) && decide (x < y + 4096)
  | .host x, .host y => decide (y ≤ x) && decide (x < y + 4096)
  | _, _ => false

/-- The units in use that some of the bytes lie in. (Log 76: DESIGN CHOICE, safe) -/
def State.unitsAt (s : State) (p : Nat) (l : List Loc) : List Nat :=
  if s.blocks.isEmpty then [] else ((s.unitLocs p).filter (fun u => l.any (fun x => x.within u.2))).map (·.1)

/-- An access in the backing region by its address, or by the bytes it reaches. (Log 76: DESIGN CHOICE, safe) -/
def State.inBacking (s : State) (p va : Nat) (l : List Loc) : Bool :=
  (decide (s.ssbase ≤ va) && decide (va < s.ssbase + s.sslen)) || !(s.unitsAt p l).isEmpty

/-- The states whose units are written take open contents. (Log 76: DESIGN CHOICE, safe) -/
def State.corrupt (s : State) (p : Nat) (l : List Loc) : State :=
  (s.unitsAt p l).foldl (fun (t : State) u =>
    { t with units := sput (List.replicate 4096 0) t.units u (freeBytes t.nextFree 4096), nextFree := t.nextFree + 4096 }) s

/-- Two parked accesses lie on one page: a leaf that bars a write has the size of its level (SYS.TVAL [49:48]), an address
without a translation that of the smallest page. (Log 81: DEDUCED, unsafe) -/
def pageOf (e : Nat × Word) : Nat × Nat :=
  let bits := if e.1 = 0x109 then lvlBits (fieldW e.2 49 48) else 16
  (bits, e.2.toNat % 2 ^ 47 / 2 ^ bits)
def samePage (e f : Nat × Word) : Bool := pageOf e == pageOf f

/-- The faults on which requesters of column `p` are parked. (Log 81: DEDUCED, unsafe) -/
def State.parkedOn (s : State) (p : Nat) : List (Nat × Word) :=
  let c := s.col p
  ([0, 1, 2, 3].filterMap (fun b => match (c.firing b).bind (·.park) with
    | some (.access k v) => some (k, v)
    | _ => none)) ++
  (c.copyq ++ c.csusp ++ c.crun.toList).filterMap (·.parked) ++
  (c.kvq.filterMap (·.parked)).filter (fun e => decide (e.1 ≠ 0x204)) ++ c.ssq.filterMap (·.parked) ++
  ((sget [] s.lse (dieOf p)).filter (fun k => decide (k.col = p))).filterMap (·.parked)

/-- The report of a park: once per column and page while that page has parked requesters (R439). (Log 81: DEDUCED,
unsafe) -/
def State.reportPark (s : State) (p cause : Nat) (tval : Word) (tmsg : Word) (tepc : Nat) : State :=
  if (s.parkedOn p).any (samePage (cause, tval)) then s else s.reportOnly cause p tval tmsg tepc

/-- A core access that faults with 0x108 or 0x109 parks its firing before its group has issued; in the trap bank the
interrupted firing aborts with 0x186 instead (R435, R439). 0x10A traps. (Log 45: DEDUCED, unsafe) -/
def State.faultCore (s : State) (cause : Nat) (tval : Word) : Out :=
  if cause = 0x10A ∨ s.me.inTrap = true then s.trap cause tval
  else (s.reportPark s.cur cause tval (s.fire.elim 0 (·.trig)) s.ctx.pc).park (.access cause tval)

end Sys2Proof.Machine
end

