-- ==== Sys2Proof/Machine/Access.lean ====
section
/-!
DEFINITION. Generic addresses and the checks every memory instruction makes at issue (R108 to R117, R212), the interlock
with matrix commands (R279), and the ways an access is made: at issue in the own local store, as a request to a remote
target, or held in the send buffer (R41, R110, R225).
-/
namespace Sys2Proof.Machine

/-- A decoded generic address: global, or window `win` and offset `off` of column `col`'s local store. -/
structure Acc where
  glob : Bool
  own : Bool
  clu : Bool
  slot : Nat
  col : Nat
  win : Nat
  off : Nat
  deriving DecidableEq, Repr

/-- Table 4-1, for an address of column `p`. (Log 20: DEDUCED, unsafe) -/
def decodeAddr (p : Nat) (a : Word) : Option Acc :=
  let n := a.toNat
  if n < 2 ^ 47 then
    some { glob := true, own := false, clu := false, slot := 0, col := p, win := 0, off := n }
  else if n / 2 ^ 24 = 0xF000000000 then
    some { glob := false, own := true, clu := false, slot := cposOf p, col := p, win := n / 2 ^ 20 % 16, off := n % 2 ^ 20 }
  else if n / 2 ^ 26 = 0x3C40000000 then
    let q := n / 2 ^ 24 % 4
    some { glob := false, own := q == cposOf p, clu := true, slot := q, col := clusterMate p q, win := n / 2 ^ 20 % 16,
           off := n % 2 ^ 20 }
  else none

/-- Space codes of Table 4-2. -/
def spaceCode (p : Nat) (a : Word) : Nat :=
  match decodeAddr p a with
  | none => 0
  | some c => if c.glob then 1 else if !c.clu then 2 else if c.own then 3 else 4

/-- Local or own cluster slot: an access to the issuing column's own local store (R110). -/
def Acc.isOwn (c : Acc) : Bool := !c.glob && c.own

/-- The outcome of the issue checks: the byte locations, a trap, or a translation fault. -/
inductive Chk where
  | ok (c : Acc) (l : List Loc)
  | trap (cause : Nat) (tval : Word)
  | fault (cause : Nat) (tval : Word)
  deriving DecidableEq, Repr

/-- A range of `n` bytes through window 15 that ends outside its aperture: in the cluster aperture only slot 3 is followed by
nothing (R109, R117). (Log 20: DEDUCED, unsafe) -/
def Acc.pastAperture (c : Acc) (n : Nat) : Bool := (!c.clu || c.slot == 3) && decide (2 ^ 20 < c.off + n)

/-- Steps 1 to 5 of R212, in order. An access that runs past the end of its aperture lies in none (R109). (Log 20:
DEDUCED, unsafe) -/
def checkAcc (p : Nat) (a : Word) (size align : Acc → Nat) (admits : Acc → Bool) : Except Nat Acc :=
  match decodeAddr p a with
  | none => .error 0x100
  | some c =>
    if c.glob = true ∧ 2 ^ 47 < c.off + size c then .error 0x100
    else if c.glob = false ∧ c.win = 15 ∧ c.pastAperture (size c) = true then .error 0x100
    else if c.glob = false ∧ c.win = 15 then .error 0x101
    else if admits c = false then .error 0x103
    else if c.off % align c ≠ 0 then .error 0x102
    else if c.glob = false ∧ 2 ^ 20 < c.off + size c then .error 0x104
    else .ok c

/-- Bytes of a translated page from `va` on. -/
def Tlb.locs (t : Tlb) (va n : Nat) : List Loc := (List.range n).map (fun i => t.loc (va + i))

/-- Step 6 of R212: translation of every page the bytes lie in, then the compressed-page check. -/
def State.locate (s : State) (p : Nat) (a : Word) (c : Acc) (n : Nat) (wr : Bool) : Chk :=
  if c.glob then
    let n1 := min n (2 ^ 16 - c.off % 2 ^ 16)
    match s.translate p c.off wr with
    | .fault k l => .fault k (walkTval c.off l wr 0)
    | .leaf t =>
      if n1 = n then (if t.cmp then .trap 0x107 a else .ok c (t.locs c.off n))
      else match s.translate p (c.off + n1) wr with
        | .fault k l => .fault k (walkTval (c.off + n1) l wr 0)
        | .leaf u => if t.cmp || u.cmp then .trap 0x107 a else .ok c (t.locs c.off n1 ++ u.locs (c.off + n1) (n - n1))
  else .ok c ((List.range n).map (fun i => .ls c.col (c.off + i)))

/-- All checks of one access. -/
def State.access (s : State) (a : Word) (wr : Bool) (size align : Acc → Nat) (admits : Acc → Bool) : Chk :=
  match checkAcc s.cur a size align admits with
  | .error k => .trap k a
  | .ok c => s.locate s.cur a c (size c) wr

/-- Continue with a checked access, or trap, or fault in translation. -/
def State.onChk (s : State) (k : Chk) (f : Acc → List Loc → Out) : Out :=
  match k with
  | .ok c l => f c l
  | .trap cause tval => s.trap cause tval
  | .fault cause tval => s.faultCore cause tval

/-! ## The interlock with matrix commands (R279) -/

/-- Byte ranges (column, offset, length) that a matrix command of column `p` reads, and that it writes. -/
def MOp.reads (p : Nat) : MOp → List (Nat × Nat × Nat)
  | .mma _ gs => gs.flatMap (fun g => (List.range g.rows).map (fun i =>
      (g.acol, g.aoff + (g.row0 + i) * g.stride, ceilDiv (g.steps * g.k * winBits g.fa) 8)))
  | .store _ _ _ _ sc _ _ => match sc with
    | some o => [(p, o, 128)]
    | none => []
  | .scale _ c o _ => [(c, o, 128)]
  | .seedx _ rec _ => [(p, rec, 64)]
  | .seedfit _ t w blk _ => [(p, t, if w = 11 then 2048 else 4096), (p, blk, 64)]
  | _ => []

def MOp.writesTo (p : Nat) : MOp → List (Nat × Nat × Nat)
  | .store _ off w stride _ _ _ => (List.range 32).map (fun i => (p, off + i * stride, ceilDiv (32 * winBits w) 8))
  | .seedx _ _ dst => [(p, dst, 2048)]
  | .seedfit _ _ _ blk _ => [(p, blk, 64)]
  | _ => []

/-- The incomplete matrix commands of the running firing; one that completes in this cycle is incomplete until it has
passed (R364). -/
def Column.mxCmds (c : Column) : List MOp :=
  let b := c.band
  let now := (c.mdone.filter (fun k => decide (k.1 = c.cycle))).toList.map (·.2)
  ((c.mrun.toList ++ c.mq ++ (c.bank b).saved ++ now).filter (fun m => decide (m.band = b))).map (·.op)

/-- A byte range of some local store meets one of the ranges. -/
def meets (rs : List (Nat × Nat × Nat)) (c o n : Nat) : Bool :=
  rs.any (fun r => decide (r.1 = c) && decide (o < r.2.1 + r.2.2) && decide (r.2.1 < o + n))

/-- An access must wait for matrix commands: it writes bytes a command reads or writes, or reads bytes a command
writes. -/
def State.mxWait (s : State) (wr : Bool) (l : List Loc) : Bool :=
  let ms := s.me.mxCmds
  l.any (fun x => match x with
    | .ls c o => meets (ms.flatMap (MOp.writesTo s.cur)) c o 1 || (wr && meets (ms.flatMap (MOp.reads s.cur)) c o 1)
    | _ => false)

/-! ## Order: acquires, releases and fences (R137 to R145) -/

/-- A load or atomic of the band's firing is outstanding. -/
def State.memBusy (s : State) (b : Nat) : Bool :=
  s.reqs.any (fun r => decide (r.col = s.cur) && decide (r.band = b) && r.dst.isSome)

/-- Ordering codes (Table 8-1): acquire for 1 to 5 and 11 to 15, release for 6 to 10 and 11 to 15; the scope. -/
def isAcq (s : BitVec 4) : Bool := (1 ≤ s.toNat && s.toNat ≤ 5) || 11 ≤ s.toNat
def isRel (s : BitVec 4) : Bool := 6 ≤ s.toNat
def ordScope (s : BitVec 4) : Nat := (s.toNat - 1) % 5

/-- The scope of a release annotation, if there is one. -/
def relScope (s : BitVec 4) : Option Nat := if isRel s then some (ordScope s) else none

/-- The home of a location lies in the instance of a scope that holds column p (R138, Table 5-2). -/
def inScope (p scope : Nat) (cap : Nat) : Loc → Bool
  | .ls c _ => match scope with
    | 0 => c == p
    | 1 => clusterMate c 0 == clusterMate p 0
    | 2 => dieOf c == dieOf p
    | _ => true
  | .gd a => decide (3 ≤ scope) || (scope == 2 && dieOf p == b2n (decide (cap / 2 ≤ a)))
  | .host _ => decide (4 ≤ scope)

/-- The bytes a request reaches. -/
def ReqOp.locs : ReqOp → List Loc
  | .store ws => ws.map (·.loc)
  | .load l _ _ _ _ _ => l
  | .amo a _ _ _ => (List.range 8).map a.add
  | .pbarr a _ _ => (List.range 16).map a.add

def ReqOp.atomic : ReqOp → Bool
  | .amo _ _ _ _ | .pbarr _ _ _ => true
  | _ => false

/-- The loads and atomics of the running firing that have not been performed and reach a location whose home lies within
the scope: what a release, or a fence of reads, waits for; with `atomics`, only the atomics. -/
def State.unperformed (s : State) (scope : Nat) (atomics : Bool) : List Nat :=
  (s.reqs.filter (fun r => decide (r.col = s.cur) && decide (r.band = s.me.band) && r.dst.isSome && r.st == .sent &&
    (!atomics || r.op.atomic) && r.op.locs.any (inScope s.cur scope s.capacity))).map (·.id)

def isHost : Loc → Bool
  | .host _ => true
  | _ => false

/-- A store or an atomic of the column to host memory has not been accepted yet: a host flush would not be complete
(R158). -/
def State.hostPending (s : State) (p : Nat) : Bool :=
  s.reqs.any (fun r => decide (r.col = p) && r.op.locs.any isHost && (r.dst.isNone || (r.op.atomic && r.st == .sent))) ||
  (s.col p).inj.any (fun e => match e with
    | .store ls _ _ _ _ _ => ls.any (fun l => l.2.any (fun w => isHost w.loc))
    | _ => false)

/-- A release at a scope waits until every earlier load and atomic of its firing within the scope is performed, at system
scope also for a host flush (R139, R143, R158). -/
def State.relWaitAt (s : State) (scope : Nat) : Bool :=
  !(s.unperformed scope false).isEmpty || (scope == 4 && s.hostPending s.cur)
def State.relWait (s : State) (code : BitVec 4) : Bool := (relScope code).elim false s.relWaitAt

/-- Commands of band `b` that END waits for (R42): matrix, copy, KV and state store, an LSWAP until its token. -/
def Column.endIds (c : Column) (b : Nat) : List Nat :=
  ((c.mrun.toList ++ c.mq ++ (c.bank b).saved).filter (fun m => decide (m.band = b))).map (·.id) ++
  ((c.copyq ++ c.csusp ++ c.crun.toList).filter (fun m => decide (m.band = b) && m.tmpl.isNone)).map (·.id) ++
  (c.kvq.filter (fun m => decide (m.band = b))).map (·.id) ++
  (c.ssq.filter (fun m => decide (m.band = b))).map (·.id)

/-- Commands that FENCE with E (R145, R280) and a W marker (R146) wait for: those, and the LSE commands that swaps of the
firing posted, until their stamps are written. -/
def State.engineIds (s : State) (p b : Nat) : List Nat :=
  (s.col p).endIds b ++ (((s.lse.flatMap (·.2)).filter (fun k => k.by_ == some (p, b))).map (·.id))

/-- LSE commands go on without the firing that posted them. -/
def State.orphanLse (s : State) (p b : Nat) : State :=
  let free (k : LCmd) : LCmd := if k.by_ = some (p, b) then { k with by_ := none } else k
  { s with lse := s.lse.map (fun (d : Nat × List LCmd) => (d.1, d.2.map free)) }

/-- An order is over: what it waits for has come about. -/
def State.orderOverAt (s : State) (p b : Nat) (o : Order) : Bool :=
  o.reqs.all (fun i => !s.reqs.any (fun r => decide (r.id = i) && r.st == .sent)) &&
  o.engs.all (fun i => !(s.engineIds p b).contains i) && !(o.flush && s.hostPending p)
def State.orderOver (s : State) (o : Order) : Bool := s.orderOverAt s.cur s.me.band o

/-- Log 32: DEDUCED, unsafe. -/
def State.addOrder (s : State) (o : Order) : State :=
  if s.orderOver o then s else s.modFire (fun f => { f with orders := f.orders.filter (fun x => !s.orderOver x) ++ [o] })

/-- After an acquire of request `id` no later event within its scope is made before the request is performed (R143). -/
def State.acquire (s : State) (code : BitVec 4) (id : Nat) : State :=
  if isAcq code then
    s.addOrder { kinds := 15, scope := ordScope code, reqs := [id], engs := [], flush := false, fresh := true }
  else s

/-- The orders that hold back an event of the kinds at the locations; none are named for an event without a location.
(Log 32: DEDUCED, unsafe) -/
def State.heldBy (s : State) (kinds : Nat) (l : List Loc) : List Order :=
  (s.fire.elim [] (·.orders)).filter (fun o => !o.fresh && o.kinds &&& kinds != 0 &&
    (l.isEmpty || l.any (inScope s.cur o.scope s.capacity)) && !s.orderOver o)

/-- An engine command now issued starts only after the orders that hold back engine commands (R145). -/
def State.holdCmd (s : State) : State :=
  let os := (s.heldBy 4 []).map (fun o => (s.nextId, o))
  if os.isEmpty then s else s.modMe (fun c => { c with engOrders := c.engOrders ++ os })

/-- Command `id` of band `b` of column `p` waits for an order before it starts. -/
def State.cmdHeld (s : State) (p b id : Nat) : Bool :=
  (s.col p).engOrders.any (fun e => e.1 == id && !s.orderOverAt p b e.2)

/-- A group waits for engine commands: a parked one parks the firing (R328, R439). -/
def State.waitCmds (s : State) (ids : List Nat) : Out :=
  match ids.filter (fun i => s.me.parkedIds.contains i) with
  | [] => s.stalled
  | i :: t => s.park (.engine (i :: t))

/-- An event goes on by `k`, or its group waits for the orders that hold it back. -/
def State.inOrder (s : State) (kinds : Nat) (l : List Loc) (k : Out) : Out :=
  match s.heldBy kinds l with
  | [] => k
  | o :: t => s.waitCmds ((o :: t).flatMap (·.engs))

/-! ## Loads -/

/-- The value a load delivers from the bytes it read. `fin`: 0 raw signed, 1 raw unsigned, 2 and 3 an element as a
signed or unsigned integer of `tgt` bits, 4 an element as FP32, 5 as BF16, 6 LDCH, 7 lanes of lane type `tgt`. -/
structure LoadFin where
  fin : Nat
  win : Nat
  tgt : Nat
  scale : Nat
  imm : Word
  deriving DecidableEq, Repr

structure Loaded where
  w : VWord
  fl : Nat
  ftz : Nat
  deriving DecidableEq, Repr

/-- One element through a window, delivered as FP32 or BF16: element × SYS.WSCALE, exact, then round_rne (R115). -/
def elemFloat (win scale : Nat) (f : Fmt) (b : Nat) : Rnd := f.fin ((winVal win b).mul (FP32.decode scale)) 0

/-- One element delivered into a lane or register of an integer or floating type (R115). -/
def elemLane (win scale t b : Nat) : Rnd :=
  if laneFp t then elemFloat win scale (laneFmt t) b
  else { code := um (laneW t) (satS (laneW t) (winInt_value win b)), fl := 0, ftz := 0 }

/-- The elements of a packed run of containers. -/
def unpack (cb n v : Nat) : List Nat := (List.range n).map (fun i => v / 2 ^ (cb * i) % 2 ^ cb)

def loadFin (k : LoadFin) (bs : List Byte) : Loaded :=
  let v := leNat bs
  match k.fin with
  | 0 => { w := (i64 (sx (8 * bs.length) v)).setWidth 512, fl := 0, ftz := 0 }
  | 1 => { w := BitVec.ofNat 512 v, fl := 0, ftz := 0 }
  | 2 => { w := (i64 (satS k.tgt (winInt_value k.win v))).setWidth 512, fl := 0, ftz := 0 }
  | 3 => { w := (i64 (satU k.tgt (winInt_value k.win v))).setWidth 512, fl := 0, ftz := 0 }
  | 4 => let r := elemFloat k.win k.scale FP32 v
         { w := BitVec.ofNat 512 r.code, fl := r.fl, ftz := r.ftz }
  | 5 => let r := elemFloat k.win k.scale BF16 v
         { w := BitVec.ofNat 512 r.code, fl := r.fl, ftz := r.ftz }
  | 6 => { w := (w64 v + k.imm).setWidth 512, fl := 0, ftz := 0 }
  | _ =>
    if k.win = 0 then { w := BitVec.ofNat 512 v, fl := 0, ftz := 0 }
    else
      let cb := winBits k.win
      let l := (unpack cb (8 * bs.length / cb) v).map (elemLane k.win k.scale k.tgt)
      { w := pack (laneW k.tgt) (l.map (·.code)), fl := flagsOf l, ftz := ftzOf l }

/-- A trap of the running firing that falls due at a later group boundary (R434, R435). (Log 48: DEDUCED, unsafe) -/
def State.defer (s : State) (cause path : Nat) (tval : Word) : State :=
  s.modFire (fun f => { f with deferred := f.deferred ++
    [{ ord := s.nextId, cause := cause, path := path, tval := tval, tepc := s.ctx.pc, aw := s.ctx.aw }] })

/-- The first location of a list whose granule holds an uncorrectable error, and whether any is corrected. -/
def State.badLoc (s : State) (l : List Loc) : Option Loc := l.find? (fun x => s.errAt x 1 == 2)
def State.anyCorrected (s : State) (l : List Loc) : Bool := l.any (fun x => s.errAt x 1 == 1)

/-- The aligned 8-byte granule of a location (R135). -/
def Loc.granule : Loc → Loc
  | .ls c o => .ls c (o / 8)
  | .gd a => .gd (a / 8)
  | .host a => .host (a / 8)

/-- The counter of corrected errors of a location: its local store's or its GDDR channels' die (Table 20-2). -/
def State.fixedAt (s : State) : Loc → Nat
  | .ls c _ => 4 + dieOf c
  | .gd a => 6 + b2n (decide (s.capacity / 2 ≤ a))
  | .host _ => 6

/-- Corrected errors of a read are counted, one for each granule, on the die that holds it (R434, R461). (Log 123:
DEDUCED, unsafe) -/
def State.countRead (s : State) (l : List Loc) : State :=
  if s.anyCorrected l then
    (((l.filter (fun x => s.errAt x 1 == 1)).map (fun x => (x.granule, s.fixedAt x))).eraseDups).foldl (fun t g => t.count g.2) s
  else s

/-- A new remote request (R440): it takes the column's next number, with the trigger and the group that issued it. `lat`:
the fixed latency of its response, 0 for none (Table 16-2). -/
def State.request (s : State) (va : Word) (op : ReqOp) (dst : Option Reg) (lat : Nat := 0) : State :=
  let r : MemReq := { id := s.nextId, col := s.cur, band := s.me.band, rseq := s.me.rseq, tmsg := s.fire.elim 0 (·.trig),
                      tepc := s.ctx.pc, aw := s.ctx.aw, va := va, op := op, dst := dst, st := .sent, got := [],
                      due := if lat = 0 then 0 else s.me.cycle + lat, when := 0, ctx := s.me.ctx }
  let s := { s with reqs := s.reqs ++ [r], nextId := s.nextId + 1 }
  s.modMe (fun c => { c with rseq := (c.rseq + 1) % 2 ^ 16 })

/-- The fixed latency of a response from a neighbour slot: that of the own store and 6 cycles more; none elsewhere (Table
16-2). -/
def slotLat (c : Acc) (lat : Nat) : Nat := if c.glob then 0 else lat + 6

/-- A load into `dst`: from the own local store it is performed at issue and its value is there after `lat` cycles;
anywhere else it is a request whose response binds the value (R225, R232). (Log 14: DESIGN CHOICE, unsafe) -/
def State.load (s : State) (c : Acc) (va : Word) (l : List Loc) (k : LoadFin) (dst : Reg) (lat : Nat) (code : BitVec 4) :
    Out :=
  s.inOrder 1 l
    (if s.mxWait false l then s.stalled
     else if c.isOwn then
       match s.badLoc l with
       | some x => ((s.countRead l).defer (errCause x).1 2 (errCause x).2).issued
       | none =>
         let r := loadFin k (l.map s.ownRd)
         ((s.countRead l).result dst r.w lat r.fl r.ftz).issued
     else
       (((s.awaiting dst s.nextId).request va (.load l k.fin k.win k.tgt k.scale k.imm) (some dst) (slotLat c lat)).acquire
         code s.nextId).issued)

/-! ## Stores -/

/-- The 64-byte line of a location. -/
def Loc.line : Loc → Loc
  | .ls c o => .ls c (o / 64)
  | .gd a => .gd (a / 64)
  | .host a => .host (a / 64)

/-- Bytes, each with its address, grouped by the line they touch, lines in the order of their first byte (R41); each group
with the address of its first byte (R441). -/
def addLine (w : Word × ByteW) : List (Word × List ByteW) → List (Word × List ByteW)
  | [] => [(w.1, [w.2])]
  | l :: t => if (l.2.head?.map (·.loc.line)) = some w.2.loc.line then (l.1, l.2 ++ [w.2]) :: t else l :: addLine w t
def byLine (ws : List (Word × ByteW)) : List (Word × List ByteW) := ws.foldl (fun a w => addLine w a) []

/-- A store: performed at issue in the own local store; otherwise one entry of the band's send buffer (R41, R225), with
cause 0x181 when the buffer is full. `vas`: the address of each byte; `fl`, `ftz`: what its conversions raise. A held store
is performed after commit, so that its release needs no wait here (R142). -/
def State.store (s : State) (own : Bool) (vas : List Word) (ws : List ByteW) (rel : Option Nat) (fl ftz : Nat) : Out :=
  let s' := if fl = 0 ∧ ftz = 0 then s else s.modMe (fun k => k.raise fl ftz)
  if own then
    s.inOrder 2 (ws.map (·.loc))
      (if rel.elim false s.relWaitAt || s.mxWait true (ws.map (·.loc)) then s.stalled else (s'.ownWrites ws).issued)
  else if s.mxWait true (ws.map (·.loc)) then s.stalled
  else if 16 ≤ (s.fire.elim 0 (·.sends.length)) then s.trap 0x181 (w64 s.ctx.raw)
  else
    let x := Send.store (byLine (zipW (fun a w => (a, w)) vas ws)) s.ctx.pc rel s.nextId
    { s'.modFire (fun f => { f with sends := f.sends ++ [x] }) with nextId := s.nextId + 1 }.issued

/-- The addresses of n consecutive bytes. -/
def seqAddrs (a : Word) (n : Nat) : List Word := (List.range n).map (fun i => a + w64 i)

/-- Whole bytes at consecutive locations. -/
def byteWs (l : List Loc) (bs : List Byte) : List ByteW := zipW (fun x b => { loc := x, val := b, mask := 0xFF#8 }) l bs

end Sys2Proof.Machine
end

