-- ==== Sys2Proof/Machine/Channel.lean ====
section
/-!
DEFINITION. Channels and outputs of a column, the channel instructions (R237 to R241) and the bell lines (R97, R99, R242).
-/
namespace Sys2Proof.Machine

/-! ## Messages and channels -/

def Msg.units (m : Msg) : Nat := m.len + 1

/-- End-of-pass and snapshot markers (Table 3-2). -/
def Msg.isMarker (m : Msg) : Bool := m.kind == 1 || m.kind == 2

/-- The header (Table 3-1). (Log 132: DESIGN CHOICE, unsafe) -/
def Msg.header (m : Msg) : Word :=
  w64 (m.dest + 2 ^ 10 * m.chan + 2 ^ 17 * m.kind + 2 ^ 21 * (m.len % 8) + 2 ^ 24 * m.seq + 2 ^ 40 * m.ctx + 2 ^ 48 * m.src +
    2 ^ 58 * b2n m.ferr)

/-- The units of a message as bytes: header, then payload. -/
def Msg.bytes (m : Msg) : List Byte := leBytes 8 m.header.toNat ++ m.pay

/-- The n-th payload byte, and the little-endian number in `n` payload bytes from `o` on. -/
def Msg.payNat (m : Msg) (o n : Nat) : Nat := leNat ((m.pay.drop o).take n)

def Column.chan (c : Column) (n : Nat) : Chan := sget Chan.empty c.chans n
def Column.setChan (c : Column) (n : Nat) (k : Chan) : Column := { c with chans := sput Chan.empty c.chans n k }
def Column.modChan (c : Column) (n : Nat) (f : Chan → Chan) : Column := c.setChan n (f (c.chan n))

/-- Occupied slots, and the items ahead of the oldest marker (R62, R79). -/
def Chan.used (k : Chan) : Nat := k.items.foldl (fun n i => n + i.msg.units) 0
/-- Log 49: DEDUCED, unsafe. -/
def Chan.ahead (k : Chan) : List Item := k.items.takeWhile (fun i => !i.msg.isMarker)

/-- The untaken messages ahead of any marker. -/
def Chan.untaken (k : Chan) : List Item := k.ahead.filter (fun i => i.taken.isNone)

/-- The items a firing of band `b` has taken, and their units. -/
def Chan.takenBy (k : Chan) (b : Nat) : List Item := k.items.filter (fun i => i.taken == some b)
def itemUnits (l : List Item) : Nat := l.foldl (fun n i => n + i.msg.units) 0

/-- A firing holds a provisional take on the channel. -/
def Chan.held (k : Chan) : Bool := k.items.any (fun i => i.taken.isSome)

/-- The head of a channel is its first untaken item: messages taken provisionally are off it (R43, R80). The marker at
the head, if one stands there. -/
def Chan.headMarker (k : Chan) : Option Item :=
  match k.items.filter (fun i => i.taken.isNone) with
  | i :: _ => if i.msg.isMarker then some i else none
  | [] => none
def Chan.markerNext (k : Chan) : Bool := k.headMarker.isSome

/-! ## Outputs (R37, R60) -/

/-- The column of a column identifier. -/
def p8 (id : Nat) : Nat := id % 256

/-- The key of an output: destination column and channel. -/
def outKey (dest ch : Nat) : Nat := 128 * dest + ch

def Column.out (c : Column) (k : Nat) : Output := sget Output.empty c.outs k
def Column.setOut (c : Column) (k : Nat) (o : Output) : Column := { c with outs := sput Output.empty c.outs k o }
def Column.modOut (c : Column) (k : Nat) (f : Output → Output) : Column := c.setOut k (f (c.out k))
def Column.addCredit (c : Column) (k n : Nat) : Column := c.modOut k (fun o => { o with credit := o.credit + n })

def Entry.inOf (e : Entry) (ch : Nat) : Option InDecl := e.ins.find? (fun i => i.ch == ch)
def Entry.outOf (e : Entry) (ch : Nat) : Option OutDecl := e.outs.find? (fun o => o.ch == ch)

/-- The firing is ending by an abort (R43). -/
def Firing.ending (f : Firing) : Bool :=
  match f.phase with
  | .abort _ _ _ _ _ => true
  | _ => false

/-- Units, as delivered, that a firing has sent on a channel number. -/
def Firing.sentOn (f : Firing) (ch : Nat) : Nat := sget 0 f.sent ch

/-! ## Channel instructions -/

/-- A local generic address of the own local store, window 0. -/
def localAddr (o : Nat) : Word := w64 (0xF000000000000000 + o)

/-- RECV (R40, R237, R238): the oldest untaken message ahead of any marker is taken and copied to 64 × u in the landing
area, u units already taken. (Log 47: DEDUCED, unsafe) -/
def execRecv (d : BitVec 5) (c : BitVec 7) (s : State) : Out :=
  s.trapBankOnly (s.need [.x d.toNat]
    (match s.fire with
     | none => s.stalled
     | some f =>
       let n := c.toNat
       let b := s.me.band
       let k := s.me.chan n
       let mine := k.takenBy b
       match f.ent.inOf n with
       | none => s.trap 0x184 (w64 n)
       | some i =>
         if i.count ≤ mine.length then s.trap 0x184 (w64 n)
         else match findIx (fun i => i.taken.isNone) k.items with
           | none => s.stalled
           | some ix =>
             match k.items[ix]? with
             | none => s.stalled
             | some it =>
               if it.msg.isMarker then s.stalled
               else
                 let o := k.land + 64 * itemUnits mine
                 let bs := it.msg.bytes
                 if s.mxWait true ((List.range bs.length).map (fun x => .ls s.cur (o + x))) then s.stalled
                 else
                   let k' := { k with items := setAt k.items ix { it with taken := some b } }
                   let s := (s.modMe (fun col => col.setChan n k')).wrBytes (.ls s.cur o) bs
                   (s.result (.x d.toNat) ((localAddr o).setWidth 512) (2 + it.msg.units)).issued))

/-! ## Routes and what a filter makes of a message's length (R68, R70, R77) -/

def Route.vc (r : Route) : Nat := if r.unp then 1 else 0
/-- The key of a region's stage in a router and virtual channel; its router. Each graph of a splice has its own (R70, R101). -/
def stageKey (region col vc : Nat) : Nat := 2048 * region + 8 * col + vc
def stageCol (k : Nat) : Nat := k / 8 % 256
def State.stageAt (s : State) (k : Nat) : Option Stage := (s.stages.find? (fun x => decide (x.1 = k))).map (·.2)

/-- The emitting stage at which a route ends: a reduction, multicast, steer, merge or carry on its path. -/
def State.endsAt (s : State) (r : Route) : Option Nat :=
  r.path.findSome? (fun h =>
    if h.stage then
      match s.stageAt (stageKey r.region h.col r.vc) with
      | some t => if 1 ≤ t.kind ∧ t.kind ≤ 6 then some (stageKey r.region h.col r.vc) else none
      | none => none
    else none)

/-- Payload bytes of a message of `len` + 1 units (R59). -/
def payBytes (len : Nat) : Nat := 64 * (len + 1) - 8

/-- The LEN that a conversion gives (Table 3-6). -/
def Filter.outLen (f : Filter) (len : Nat) : Nat :=
  if f.conv then ceilDiv (8 + ceilDiv (f.e * winBits f.dfmt) 8) 64 - 1 else len

/-- A payload of so many bytes is too short for a transform, or E is no multiple of 64 for a transposition (R78). -/
def Filter.unfit (f : Filter) (len bytes : Nat) : Bool :=
  (f.conv && decide (8 * bytes < f.e * winBits f.sfmt)) ||
  (f.trans && (decide (8 * (if f.conv then payBytes (f.outLen len) else bytes) < f.e * (8 * 2 ^ f.tw)) || f.e % 64 != 0))

/-- LEN after the filter of a route, if it has one; markers pass as they are. (Log 131: DESIGN CHOICE, unsafe) -/
def Route.lenAfter (r : Route) (kind len : Nat) : Nat :=
  match r.filter with
  | some f => if kind ≠ 0 ∨ f.unfit len (payBytes len) = true then len else f.outLen len
  | none => len

/-- The units of a message as delivered (R77): the filters of its route and of the routes that leave the stages on its way;
the longest copy of a multicast. -/
def State.unitsAfter (s : State) (r : Route) (kind len : Nat) : Nat → Nat
  | 0 => len + 1
  | fuel + 1 =>
    let len := r.lenAfter kind len
    match s.endsAt r with
    | none => len + 1
    | some k => match s.stageAt k with
      | none => len + 1
      | some t =>
        let outs := if t.kind = 3 then s.routes.filter (fun o => o.cast && o.region == r.region && o.src == stageCol k && o.chan == r.chan)
          else t.outs
        outs.foldl (fun n o => max n (s.unitsAfter o kind len fuel)) (if t.kind = 3 ∨ outs.isEmpty then len + 1 else 0)

/-- A route belongs to a graph of context tag `tag`. -/
def State.ofTag (s : State) (tag : Nat) (r : Route) : Bool :=
  (s.regions.find? (fun x => x.id == r.region)).elim true (fun x => x.ctx == tag)

/-- The route of column p to channel ch of column dest in the graph of a tag. -/
def State.routeTo (s : State) (tag p dest ch : Nat) : Option Route :=
  s.routes.find? (fun r => !r.cast && decide (r.src = p) && decide (r.dest = dest) && decide (r.chan = ch) && s.ofTag tag r)

/-- The units a message of the issuing column takes at its consumer. -/
def State.unitsTo (s : State) (dest ch kind len : Nat) : Nat :=
  match s.routeTo s.me.ctx s.cur dest ch with
  | some r => s.unitsAfter r kind len (s.stages.length + 1)
  | none => len + 1

/-- Checks 1 to 4 of R239: the offset of a SEND's message in the own local store. -/
def sendAddr (p : Nat) (a : Word) : Except Nat Nat :=
  match checkAcc p a (fun _ => 8) (fun _ => 8) (fun c => c.isOwn && c.win == 0) with
  | .error k => .error k
  | .ok c => .ok c.off

/-- Checks 6 to 10 of R239 for a message of `len` + 1 units: a cause with its SYS.TVAL, or the output. The declared count
is in units as delivered (R77). -/
def State.sendCheck (s : State) (f : Firing) (n : Nat) (hdr : Nat) : Except (Nat × Word) OutDecl :=
  let kind := fieldN hdr 20 17
  let len := fieldN hdr 23 21
  match f.ent.outOf n with
  | none => .error (0x183, w64 n)
  | some o =>
    let out := s.me.out (outKey o.dest n)
    if 2 < kind ∨ (kind ≠ 0 ∧ len ≠ 0) then .error (0x18A, w64 hdr)
    else if out.opened = true ∧ out.cap < len + 1 then .error (0x18F, w64 n)
    else if o.count ≠ 0 ∧ o.count < f.sentOn n + s.unitsTo o.dest n kind len then .error (0x182, w64 n)
    else if 16 ≤ f.sends.length then .error (0x181, w64 s.ctx.raw)
    else .ok o

/-- SEND (R41, R239): the message is captured in one send-buffer entry at issue; its reads wait for matrix commands that
write the bytes (R279). (Log 48: DEDUCED, unsafe) -/
def execSend (d : BitVec 5) (c : BitVec 7) (s : State) : Out :=
  s.trapBankOnly (s.need [.x d.toNat]
    (match s.fire with
     | none => s.stalled
     | some f =>
       let n := c.toNat
       let a := s.X d
       match sendAddr s.cur a with
       | .error k => s.trap k a
       | .ok o =>
         let hdr := s.rdNat (.ls s.cur o) 8
         let len := fieldN hdr 23 21
         let head : List Loc := (List.range 8).map (fun x => .ls s.cur (o + x))
         let locs : List Loc := (List.range (64 * (len + 1))).map (fun x => .ls s.cur (o + x))
         if s.mxWait false head then s.stalled
         else if 2 ^ 20 < o + 64 * (len + 1) then s.trap 0x104 a
         else match s.sendCheck f n hdr with
           | .error k => s.trap k.1 k.2
           | .ok out =>
             if s.mxWait false locs then s.stalled
             else match s.badLoc locs with
               | some x => ((s.countRead locs).defer (errCause x).1 2 (errCause x).2).issued
               | none =>
                 let pay := s.rdBytes (.ls s.cur (o + 8)) (64 * (len + 1) - 8)
                 let m := Send.msg out.dest n (fieldN hdr 20 17) len pay
                 ((s.countRead locs).modFire (fun f =>
                   { f with sends := f.sends ++ [m],
                            sent := sput 0 f.sent n (f.sentOn n + s.unitsTo out.dest n (fieldN hdr 20 17) len) })).issued))

/-- What PEEK reads (R240): the k-th untaken item, a message or a marker at the head. (Log 49: DEDUCED, unsafe) -/
def Chan.peek (k : Chan) (n : Nat) : Option Msg :=
  match (k.items.filter (fun i => i.taken.isNone))[n]? with
  | some i => if i.msg.isMarker ∧ n ≠ 0 then none else some i.msg
  | none => none

def execPeek (d : BitVec 5) (k : BitVec 4) (c : BitVec 7) (s : State) : Out :=
  s.trapBankOnly (s.need [.x d.toNat]
    (let none_ : Word := w64 (2 ^ 63)
     let w := match s.fire with
       | none => none_
       | some f => match f.ent.inOf c.toNat with
         | none => none_
         | some _ => (((s.me.chan c.toNat).peek k.toNat).map Msg.header).getD none_
     (s.result (.x d.toNat) (w.setWidth 512) 2).issued))

/-- The word of CHST (Table 8-9) for a firing of band `b`. (Log 49: DEDUCED, unsafe) -/
def Column.chst (c : Column) (b : Nat) (decl : Bool) (n : Nat) : Word :=
  let k := c.chan n
  w64 (k.untaken.length + 2 ^ 5 * (k.slots - k.used) + 2 ^ 10 * k.slots + 2 ^ 15 * b2n k.markerNext +
    2 ^ 16 * (k.takenBy b).length + 2 ^ 21 * b2n decl)

def execChst (d : BitVec 5) (c : BitVec 7) (s : State) : Out :=
  s.trapBankOnly (s.need [.x d.toNat]
    (let decl := match s.fire with
       | none => false
       | some f => (f.ent.inOf c.toNat).isSome
     (s.result (.x d.toNat) ((s.me.chst s.me.band decl c.toNat).setWidth 512) 2).issued))

/-! ## Bell lines -/

/-- The columns of a membership map (R94). -/
def members (map : Nat) : List Nat := (List.range 256).filter (fun p => bitN map p)

/-- The membership map of a group, and of the group a line of a die is bound to. -/
def State.groupMap (s : State) (g : Nat) : Nat := sget 0 s.groups g
def State.bell (s : State) (die line : Nat) : Bell := sget Bell.unbound s.bells (32 * die + line)

/-- The line's state is written on every die that holds a member: a line whose group spans both dies runs on both. -/
def State.setBell (s : State) (line : Nat) (ms : List Nat) (b : Bell) : State :=
  let put (die : Nat) (l : List (Nat × Bell)) := if ms.any (fun p => dieOf p == die) then
    sput Bell.unbound l (32 * die + line) b else l
  { s with bells := put 1 (put 0 s.bells) }

/-- Continue with the line and its members, or trap with 0x18B when it is unbound or the column is no member. -/
def State.onBell (s : State) (l : BitVec 5) (k : Bell → List Nat → Out) : Out :=
  let b := s.bell (dieOf s.cur) l.toNat
  match b.group with
  | none => s.trap 0x18B (w64 l.toNat)
  | some g =>
    let ms := members (s.groupMap g)
    if ms.contains s.cur then k b ms else s.trap 0x18B (w64 l.toNat)

/-- The release scope of a bell line: die when every member is on one die, else package (R156). -/
def bellScope (ms : List Nat) : Nat := if ms.all (fun p => dieOf p == dieOf (ms.headD 0)) then 2 else 3

/-- BELLA: sets the flag; the last arrival clears every flag and flips the phase (BELL_FLIP). A flag already set stalls; as
a release it waits for the firing's earlier loads and atomics within its scope (R156). -/
def execBella (l : BitVec 5) (s : State) : Out :=
  s.onBell l (fun b ms =>
    if b.flags.contains s.cur || s.relWaitAt (bellScope ms) then s.stalled
    else
      let fl := s.cur :: b.flags
      let b' := if ms.all (fun p => fl.contains p) then { b with flags := [], phase := !b.phase } else { b with flags := fl }
      (s.setBell l.toNat ms b').issued)

/-- Log 50: DEDUCED, unsafe. -/
def execBellw (d l : BitVec 5) (s : State) : Out :=
  s.need [.x d.toNat] (s.onBell l (fun b _ =>
    if b.flags.contains s.cur then s.stalled
    else (s.result (.x d.toNat) (BitVec.ofNat 512 (b2n b.phase)) 2).issued))

def execBellt (d l : BitVec 5) (s : State) : Out :=
  s.need [.x d.toNat] (s.onBell l (fun b _ =>
    (s.result (.x d.toNat) (BitVec.ofNat 512 (b2n (b.flags.contains s.cur) + 2 * b2n b.phase)) 2).issued))

end Sys2Proof.Machine
end

