-- ==== Sys2Proof/Machine/Stack.lean ====
section
/-!
DEFINITION. A column's stack slices (R24): layer l, offset o is key l × 2^23 + o. Words of 8 bytes carry SECDED: a table of
flipped bits (64 to 71 the check bits) beside the bytes (R296, R467), and the check pattern of R321. And the chunk format
of compressed data (R312, R313).
-/
namespace Sys2Proof.Machine

/-- Mark of a word that holds the check pattern (R321, R463). -/
def checkMark : Nat := 2 ^ 72

/-- What a vertical read finds in a word with flipped bits `m`: 0 nothing, 1 a corrected error, 2 a double error; three or
more flips: 3 a wrong correction, 4 undetected (R467 leaves which open). (Log 8: DESIGN CHOICE, safe) -/
def flipClass (m w : Nat) : Nat :=
  if m = 0 then 0
  else if checkMark ≤ m then 2
  else match popcount 72 m with
    | 1 => 1
    | 2 => 2
    | _ => match Config.manyFlips m w with
      | 0 => 2
      | 1 => 3
      | _ => 4

/-- The word delivered: corrected, uncorrected for a double error, open beyond that. (Log 8: DESIGN CHOICE, safe) -/
def flipValue (m w : Nat) : Nat :=
  match flipClass m w with
  | 0 | 1 => w
  | 2 => w ^^^ (m % 2 ^ 64)
  | _ => (Config.manyFlipsValue m w).toNat

/-- Log 3: DESIGN CHOICE, unsafe. -/
def Column.stackByte (c : Column) (a : Nat) : Byte := sget 0 c.stack a

/-- The stored word at a multiple of 8, its class, the value read. -/
def Column.stackStored (c : Column) (a : Nat) : Nat := leNat ((List.range 8).map (fun i => c.stackByte (a + i)))
/-- Log 3: DESIGN CHOICE, unsafe. -/
def Column.stackClass (c : Column) (a : Nat) : Nat := flipClass (sget 0 c.stkFlip (a / 8)) (c.stackStored (a / 8 * 8))
def Column.stackWord (c : Column) (a : Nat) : Nat := flipValue (sget 0 c.stkFlip (a / 8)) (c.stackStored (a / 8 * 8))

/-- The words that `n` bytes at `a` lie in. -/
def wordsOf (a n : Nat) : List Nat := (List.range ((a + n + 7) / 8 - a / 8)).map (fun i => (a / 8 + i) * 8)

/-- `n` bytes as a vertical read delivers them. -/
def Column.stackRead (c : Column) (a n : Nat) : List Byte :=
  (((wordsOf a n).flatMap (fun w => leBytes 8 (c.stackWord w))).drop (a % 8)).take n

/-- A word of the range is a double error. -/
def Column.stackBad (c : Column) (a n : Nat) : Bool := (wordsOf a n).any (fun w => c.stackClass w == 2)

/-- Write bytes into a slice; a word written loses its flipped bits. -/
def Column.stackWrite (c : Column) (a : Nat) : List Byte → Column
  | [] => c
  | b :: t => { c with stack := sput 0 c.stack a b, stkFlip := sput 0 c.stkFlip (a / 8) 0 }.stackWrite (a + 1) t

/-- Write the check pattern over the words of a range. -/
def Column.stackPoison (c : Column) (a n : Nat) : Column :=
  { c with stkFlip := (wordsOf a n).foldl (fun m w => sput 0 m (w / 8) checkMark) c.stkFlip }

/-- A row of a slice (R462): 2 KiB, keyed with its column. -/
def rowKey (p a : Nat) : Nat := p * 2 ^ 15 + a / 2048

/-- Account for the errors of one vertical read (R461, R462): corrected words are counted per die and per row, a row with
four or with a double error is to be spared. -/
def State.stackWordErr (s : State) (p w : Nat) : State :=
  let k := (s.col p).stackClass w
  let due (s : State) : State :=
    if s.proctor.spareDue.contains (rowKey p w) then s
    else { s with proctor := { s.proctor with spareDue := s.proctor.spareDue ++ [rowKey p w] } }
  if k = 1 ∨ k = 3 then
    let s := s.count (dieOf p)
    let n := sget 0 s.proctor.rowErr (rowKey p w) + 1
    let s := { s with proctor := { s.proctor with rowErr := sput 0 s.proctor.rowErr (rowKey p w) n } }
    if 4 ≤ n then due s else s
  else if k = 2 then due (s.count (2 + dieOf p))
  else s

def State.stackErrs (s : State) (p a n : Nat) : State := (wordsOf a n).foldl (fun s w => s.stackWordErr p w) s

/-- Some word of the range is corrected on this read. -/
def Column.stackFixed (c : Column) (a n : Nat) : Bool :=
  (wordsOf a n).any (fun w => c.stackClass w == 1 || c.stackClass w == 3)

/-! ## Compressed chunks (R312, R313) -/

/-- One bit of the CRC, and the CRC-16 of a byte string: polynomial 0x1021, initial value 0xFFFF. -/
def crcBits : Nat → Nat → Nat
  | 0, c => c
  | n + 1, c => crcBits n (if 0x8000 ≤ c then (2 * c % 2 ^ 16) ^^^ 0x1021 else 2 * c)
def crc16 (l : List Byte) : Nat := l.foldl (fun c b => crcBits 8 (c ^^^ (256 * b.toNat))) 0xFFFF

/-- Stored length of a chunk with `nz` data bytes. -/
def chunkLen (nz : Nat) : Nat := 4 * ceilDiv (36 + nz) 4

def maskOf : List Byte → Nat
  | [] => 0
  | b :: t => (if b = 0 then 0 else 1) + 2 * maskOf t

/-- The stored bytes of 256 expanded bytes. -/
def chunkPack (l : List Byte) : List Byte :=
  let d := l.filter (fun b => decide (b ≠ 0))
  let bs := leBytes 4 (crc16 l + 2 ^ 16 * d.length) ++ leBytes 32 (maskOf l) ++ d
  bs ++ List.replicate (chunkLen d.length - bs.length) 0

/-- Put the data bytes where the mask has its 1 bits. -/
def chunkSpread : Nat → Nat → List Byte → List Byte
  | 0, _, _ => []
  | n + 1, m, d =>
    if m % 2 = 1 then
      match d with
      | b :: t => b :: chunkSpread n (m / 2) t
      | [] => 0 :: chunkSpread n (m / 2) []
    else 0 :: chunkSpread n (m / 2) d

/-- A chunk's 256 bytes, whether it is malformed (then zeros), and its stored length where the header is usable. -/
structure ChunkRead where
  bytes : List Byte
  bad : Bool
  len : Option Nat
  deriving DecidableEq, Repr

/-- Read a chunk from the bytes at its header; at least 292 bytes are given, missing ones read as zero. -/
def chunkUnpack (l : List Byte) : ChunkRead :=
  let h := leNat (l.take 4)
  let nz := fieldN h 24 16
  let usable := fieldN h 31 25 == 0 && decide (nz ≤ 256)
  let m := leNat ((l.drop 4).take 32)
  let d := (l.drop 36).take nz
  let x := chunkSpread 256 m d
  let ok := usable && popcount 256 m == nz && d.all (fun b => decide (b ≠ 0)) && d.length == nz && crc16 x == fieldN h 15 0
  { bytes := if ok then x else List.replicate 256 0, bad := !ok, len := if usable then some (chunkLen nz) else none }

end Sys2Proof.Machine
end

