-- ==== Sys2Proof/Machine/Transfer.lean ====
section
/-!
DEFINITION. What the four engines share (R148, R306 to R308): the checks of an operand, an engine's access to a granule
of memory, and a transfer from one place to another, raw, compressing or decompressing (R309 to R313). Each source granule
is read once and each destination granule written once; the schedule may make any of these accesses before the command
completes, and the completion makes those that are left, in address order. (Log 63: DESIGN CHOICE, unsafe)
-/
namespace Sys2Proof.Machine

/-! ## Operands and descriptors (R308) -/

/-- The checks of an engine operand of `n` bytes aligned to `al`, which `admits` takes. -/
def engAddr (p : Nat) (a : Word) (admits : Acc → Bool) (al n : Nat) : Except (Nat × Word) Acc :=
  match decodeAddr p a with
  | none => .error (0x100, a)
  | some c =>
    if !c.glob && c.win == 15 then .error (if c.pastAperture n then 0x100 else 0x101, a)
    else if !admits c then .error (0x200, a)
    else if c.off % al ≠ 0 then .error (0x102, a)
    else if !c.glob && decide (2 ^ 20 < c.off + n) then .error (0x104, a)
    else .ok c

/-- The own local store, window 0, through either aperture. -/
def ownRaw (c : Acc) : Bool := c.isOwn && c.win == 0

/-- The byte locations of a range of a local store. -/
def lsLocs (col off n : Nat) : List Loc := (List.range n).map (fun i => .ls col (off + i))

/-- Continue with a checked operand, or trap. -/
def State.onEng (s : State) (e : Except (Nat × Word) Acc) (k : Acc → Out) : Out :=
  match e with
  | .error x => s.trap x.1 x.2
  | .ok c => k c

/-- Continue with the 32 bytes of a descriptor in the own local store, as a number (R317, R319), their read accounted
for. (Log 64: DEDUCED, unsafe) -/
def State.onDesc (s : State) (a : Word) (k : Nat → State → Out) : Out :=
  s.onEng (engAddr s.cur a ownRaw 32 32) (fun c =>
    let l := lsLocs s.cur c.off 32
    if s.mxWait false l then s.stalled
    else match s.badLoc l with
      | some x => ((s.countRead l).defer (errCause x).1 2 (errCause x).2).issued
      | none => k (s.rdNat (.ls s.cur c.off) 32) (s.countRead l))

/-- The trigger identifier of the firing that issued a command of band `b`, or of the template's trigger message. -/
def State.cmdTmsg (s : State) (p b : Nat) (tmpl : Option Nat) : Word :=
  match tmpl with
  | none => ((s.col p).firing b).elim 0 (·.trig)
  | some n =>
    let h := (sget Template.empty (s.col p).templates n).hdr
    w64 (fieldW h 39 24 + 2 ^ 16 * fieldW h 16 10 + 2 ^ 23)

/-- A deferred trap of the firing in band `b`, for its command `id` (R307). -/
def Column.deferAt (c : Column) (b id cause path : Nat) (tval : Word) (tepc : Nat) : Column :=
  c.modFiring b (fun f => { f with deferred := f.deferred ++
    [{ ord := id, cause := cause, path := path, tval := tval, tepc := tepc, aw := false }] })

/-! ## One access of an engine -/

/-- An uncorrectable read by an engine of column `p` is reported and journalled (R434); what it gives is zero. -/
def State.engRead (s : State) (p : Nat) (tmsg : Word) (tepc : Nat) (l : List Loc) : List Byte × Bool × State :=
  match s.badLoc l with
  | some x => (l.map (fun _ => 0), true,
      (s.countRead l).reportBoth (errCause x).1 p (errCause x).2 tmsg tepc)
  | none => (l.map s.rd, false, s.countRead l)

/-- Where a transfer reads or writes: a local store, the global address space with the requester code of R437 and the die
whose cache serves it, or a slice. -/
inductive Place where
  | ls (col off : Nat)
  | va (die req a : Nat)
  | slice (col key : Nat)
  deriving DecidableEq, Repr

/-- A compressed page is refused to the KV engine with 0x207 and to the state store and the free list with 0x200; the copy
port and the LSE take it (R132, R308). (Log 139: DEDUCED, unsafe) -/
def refusal (req : Nat) : Option Nat := if req = 3 then some 0x207 else if req = 4 ∨ req = 5 then some 0x200 else none

/-- The location of a global address that an engine reaches, or its fault: an address past the range lies in no aperture
(R109). (Log 60: DEDUCED, unsafe) -/
def State.reach (s : State) (die req va : Nat) (wr : Bool) : Except (Nat × Word) Loc :=
  if 2 ^ 47 ≤ va then .error (0x100, w64 va)
  else match s.translateE die va wr with
  | .fault c lv => .error (c, walkTval va lv wr req)
  | .leaf t => match t.cmp, refusal req with
    | true, some c => .error (c, w64 va)
    | _, _ => .ok (t.loc va)

/-- Read the 8 bytes of granule `g` of a place: the bytes, whether they were uncorrectable, the state. Bytes of the state
backing region are open (R332). -/
def State.readGran (s : State) (p : Nat) (tmsg : Word) (tepc : Nat) (x : Place) (g : Nat) :
    Except (Nat × Word) (List Byte × Bool × State) :=
  match x with
  | .ls c o => .ok (s.engRead p tmsg tepc (lsLocs c (o + 8 * g) 8))
  | .slice c k => .ok ((s.col c).stackRead (k + 8 * g) 8, false, s)
  | .va d req a => match s.reach d req (a + 8 * g) false with
    | .error e => .error e
    | .ok l =>
      let l8 := (List.range 8).map l.add
      if s.inBacking p (a + 8 * g) l8 then .ok (freeBytes s.nextFree 8, false, { s with nextFree := s.nextFree + 8 })
      else .ok (s.engRead p tmsg tepc l8)

/-- Write bytes from byte `o` of a place on, within one granule. -/
def State.writePart (s : State) (p : Nat) (x : Place) (o : Nat) (bs : List Byte) : Except (Nat × Word) State :=
  match x with
  | .ls c b => .ok (s.wrBytes (.ls c (b + o)) bs)
  | .slice c k => .ok (s.modCol c (fun col => col.stackWrite (k + o) bs))
  | .va d req a => match s.reach d req (a + o) true with
    | .error e => .error e
    | .ok l => .ok ((s.wrBytes l bs).corrupt p ((List.range bs.length).map l.add))

/-! ## A transfer -/

/-- A transfer of column `p`: `len` expanded bytes from `src` to `dst`, of kind `mode` (0 raw, 1 compressing, 2
decompressing); a decompressing one writes bytes `lo` to `hi` only. -/
structure Job where
  p : Nat
  tmsg : Word
  tepc : Nat
  src : Place
  dst : Place
  mode : Nat
  len : Nat
  lo : Nat
  hi : Nat
  deriving DecidableEq, Repr

/-- A granule read, and `n` bytes at offset `o` where all of them have been read. -/
def Flow.gran (f : Flow) (g : Nat) : Option (List Byte) := (f.got.find? (fun x => x.1 == g)).map (·.2)
def Flow.bytes (f : Flow) (o n : Nat) : Option (List Byte) :=
  ((wordsOf o n).mapM (fun w => f.gran (w / 8))).map (fun l => (l.flatten.drop (o % 8)).take n)

/-- NZ of a chunk header, where the header is usable (R313). -/
def headerNz (h : Nat) : Option Nat := if fieldN h 31 25 = 0 ∧ fieldN h 24 16 ≤ 256 then some (fieldN h 24 16) else none

/-- The source bytes that `n` more chunks from offset `o` on are known to need. -/
def Flow.need (f : Flow) : Nat → Nat → Nat
  | 0, o => o
  | n + 1, o => match (f.bytes o 4).bind (fun b => headerNz (leNat b)) with
    | none => o + 36
    | some nz => if n = 0 then o + 36 + nz else f.need n (o + chunkLen nz)

/-- The chunks that are known of `n` from offset `o` on, none once the stream cannot be located: their bytes, whether they
are malformed, and the offset of their header (R313). (Log 68: DESIGN CHOICE, safe) -/
def Flow.chunks (f : Flow) : Nat → Option Nat → List (ChunkRead × Option Nat)
  | 0, _ => []
  | n + 1, none => ({ bytes := List.replicate 256 0, bad := true, len := none }, none) :: f.chunks n none
  | n + 1, some o => match f.bytes o 4 with
    | none => []
    | some h => match f.bytes o (36 + (headerNz (leNat h)).getD 0) with
      | none => []
      | some b =>
        let u := chunkUnpack b
        (u, some o) :: f.chunks n (u.len.map (o + ·))

/-- The 256-byte chunks of a byte string. -/
def chunksOf : Nat → List Byte → List (List Byte)
  | 0, _ => []
  | n + 1, l => l.take 256 :: chunksOf n (l.drop 256)

/-- The number of a transfer's chunks: of a decompressing one those up to byte `hi`. -/
def Job.nchunks (j : Job) : Nat := if j.mode = 2 then ceilDiv j.hi 256 else j.len / 256

/-- Granule `g` of the source is known to be needed. -/
def Job.wants (j : Job) (f : Flow) (g : Nat) : Bool :=
  decide (8 * g < if j.mode = 2 then f.need j.nchunks 0 else j.len)

/-- The bytes a transforming transfer writes, as far as they are known from the first on. (Log 124: DEDUCED, unsafe) -/
def Job.known (j : Job) (f : Flow) : List Byte :=
  if j.mode = 2 then (f.chunks j.nchunks (some 0)).flatMap (·.1.bytes)
  else
    let n := ((List.range j.nchunks).takeWhile (fun k => (f.bytes (256 * k) 256).isSome)).length
    (List.range n).flatMap (fun k => chunkPack ((f.bytes (256 * k) 256).getD []))

/-- The bytes that go to granule `g` of the destination: none while they are not known. -/
def Job.piece (j : Job) (f : Flow) (g : Nat) : Option (List Byte) :=
  if j.mode = 0 then f.gran g
  else
    let bs := j.known f
    let whole := if j.mode = 2 then true
      else (f.bytes 0 j.len).isSome || decide (8 * g + 8 ≤ bs.length)
    if !whole || (j.mode == 2 && !(decide (j.lo ≤ 8 * g) && decide (8 * g < j.hi))) then none
    else match (bs.drop (8 * g)).take 8 with
      | [] => none
      | b :: t => some (b :: t)

/-- A fault that parks its requester, and does not end its command (R439). -/
def parks (e : Nat × Word) : Bool := e.1 == 0x108 || e.1 == 0x109

/-- How far a transfer got: the state, what has moved, a fault. -/
structure Moved where
  st : State
  flow : Flow
  fault : Option (Nat × Word)
  deriving DecidableEq, Repr

/-- Read granule `g` of the source, if it has not been read. -/
def Job.fetch (j : Job) (m : Moved) (g : Nat) : Moved :=
  if m.fault.isSome || (m.flow.gran g).isSome || !j.wants m.flow g then m
  else match m.st.readGran j.p j.tmsg j.tepc j.src g with
    | .error e => { m with fault := some e }
    | .ok (bs, bad, s) =>
      { m with st := s, flow := { m.flow with got := m.flow.got ++ [(g, bs)], bad := if bad then m.flow.bad ++ [g] else m.flow.bad } }

/-- Write granule `g` of the destination, if its bytes are known and it has not been written. -/
def Job.emit (j : Job) (m : Moved) (g : Nat) : Moved :=
  if m.fault.isSome || m.flow.put.contains g then m
  else match j.piece m.flow g with
    | none => m
    | some bs => match m.st.writePart j.p j.dst (8 * g) bs with
      | .error e => { m with fault := some e }
      | .ok s => { m with st := s, flow := { m.flow with put := m.flow.put ++ [g] } }

/-- All that is left of a transfer, in address order: a raw one granule by granule, so that it stops at the page that
faults (R315); a transforming one reads, then writes. -/
def Job.run (j : Job) (m : Moved) : Moved :=
  if j.mode = 0 then (List.range (j.len / 8)).foldl (fun m g => j.emit (j.fetch m g) g) m
  else
    let m := (List.range (ceilDiv (292 * j.nchunks) 8 + 1)).foldl j.fetch m
    (List.range (ceilDiv (292 * j.nchunks) 8 + 1)).foldl j.emit m

/-- The bytes a complete transfer has written: the compressed size, or all of them (R311). -/
def Job.written (j : Job) (f : Flow) : Nat := if j.mode = 1 then (j.known f).length else j.len

/-- One access of a transfer before its command completes (R148): none when it is not due or faults. (Log 63: DESIGN
CHOICE, unsafe) -/
def Job.move (j : Job) (s : State) (f : Flow) (wr : Bool) (g : Nat) : Option Moved :=
  let m := if wr then j.emit { st := s, flow := f, fault := none } g else j.fetch { st := s, flow := f, fault := none } g
  if m.fault.isSome || m.flow == f then none else some m

/-! ## Malformed chunks (R314) -/

/-- One append to the bad-chunk list, or OVF with cause 0x209; an entry past the end of the local store wraps to its
start. (Log 68: DESIGN CHOICE, safe; 141: DESIGN CHOICE, unsafe) -/
def State.badChunk (s : State) (p : Nat) (tmsg : Word) (tepc : Nat) (a k : Nat) : State :=
  let w := (s.col p).badlist
  let base := fieldW w 19 0
  let cnt := fieldW w 43 32
  if cnt = fieldW w 31 20 then
    (s.modCol p (fun c => { c with badlist := c.badlist ||| w64 (2 ^ 44) })).reportOnly 0x209 p (w64 a) tmsg tepc
  else
    (s.wrNat (.ls p ((base + 8 * cnt) % 2 ^ 20)) 8 (a + 2 ^ 47 * (k % 2 ^ 17))).modCol p
      (fun c => { c with badlist := w64 (w.toNat - 2 ^ 32 * cnt + 2 ^ 32 * ((cnt + 1) % 2 ^ 12)) })

/-- The malformed chunks of a decompressing transfer from global address `a` enter the list, in order; the address of one
that could not be located is open. (Log 68: DESIGN CHOICE, safe) -/
def State.badChunks (s : State) (p : Nat) (tmsg : Word) (tepc a : Nat) (l : List (ChunkRead × Option Nat)) : State :=
  (zipW (fun k x => (k, x)) (List.range l.length) l).foldl (fun (s : State) x =>
    if !x.2.1.bad then s
    else match x.2.2 with
      | some o => s.badChunk p tmsg tepc ((a + o) % 2 ^ 47) x.1
      | none => { s with nextFree := s.nextFree + 1 }.badChunk p tmsg tepc ((Config.freeValue s.nextFree).toNat % 2 ^ 47) x.1) s

end Sys2Proof.Machine
end

