-- ==== Sys2Proof/Machine/Copy.lean ====
section
/-!
DEFINITION. The copy port and the copy templates (R305 to R318).
-/
namespace Sys2Proof.Machine

/-- The two-entry queues of the KV and state-store engines: the command being carried out, which is the first unless it is held
back by an order, is at its engine and holds no entry (R21, R395). (Log 52: DEDUCED, unsafe) -/
def State.queueFull (s : State) (l : List (Nat × Nat)) : Bool :=
  match l with
  | [] => false
  | k :: t => decide (2 ≤ t.length + b2n (s.cmdHeld s.cur k.1 k.2))
/-- Log 52: DEDUCED, unsafe. -/
def State.kvFull (s : State) : Bool := s.queueFull (s.me.kvq.map (fun k => (k.band, k.id)))
def State.ssFull (s : State) : Bool := s.queueFull (s.me.ssq.map (fun k => (k.band, k.id)))

/-! ## CPY (R309, R310) -/

/-- A copy's operands after the checks of R309. -/
structure Sides where
  d : Acc
  s : Acc
  deriving DecidableEq, Repr

def copyAddr (p : Nat) (a : Word) (n : Nat) : Except (Nat × Word) Acc :=
  match decodeAddr p a with
  | none => .error (0x100, a)
  | some c => if !c.glob && c.win == 15 then .error (if c.pastAperture n then 0x100 else 0x101, a) else .ok c

/-- Space and window of either side that no copy admits. (Log 60: DEDUCED, unsafe) -/
def copySide (c : Acc) : Bool := c.glob || c.win == 0

/-- The range ends outside its window or aperture. (Log 62: DEDUCED, unsafe) -/
def pastEnd (c : Acc) (n : Nat) : Bool := if c.glob then decide (2 ^ 47 < c.off + n) else decide (2 ^ 20 < c.off + n)

/-- Checks 1 to 6 of R309, destination before source. (Log 60: DEDUCED, unsafe; 62: DEDUCED, unsafe) -/
def copyCheck (p : Nat) (dst src : Word) (len : Nat) (stamp : Bool) : Except (Nat × Word) Sides :=
  match copyAddr p dst (len + (if stamp then 8 else 0)) with
  | .error e => .error e
  | .ok d => match copyAddr p src len with
    | .error e => .error e
    | .ok c =>
      if !copySide d then .error (0x200, dst)
      else if !copySide c then .error (0x200, src)
      else if !ownRaw d && !ownRaw c then .error (0x200, dst)
      else if d.off % 8 ≠ 0 then .error (0x102, dst)
      else if c.off % 8 ≠ 0 then .error (0x102, src)
      else if len % 8 ≠ 0 ∨ 2 ^ 20 < len then .error (0x200, w64 len)
      else if ownRaw d && ownRaw c && decide (d.off < c.off + len) && decide (c.off < d.off + len) then .error (0x200, dst)
      else if pastEnd d (len + (if stamp then 8 else 0)) then .error (0x104, dst)
      else if pastEnd c len then .error (0x104, src)
      else .ok { d := d, s := c }

/-- The global side, if there is one, and whether it is the destination. (Log 61: DEDUCED, unsafe) -/
def Sides.global (x : Sides) : Option (Nat × Bool) :=
  if x.d.glob then some (x.d.off, true) else if x.s.glob then some (x.s.off, false) else none

/-- The kind of a copy (R310), which its global side's first page decides: 0 raw, 1 compressing, 2 decompressing; none while
that page has no translation. (Log 61: DEDUCED, unsafe; 124: DEDUCED, unsafe) -/
def State.copyKind (s : State) (p : Nat) (x : Sides) (len : Nat) : Option Nat :=
  match x.global with
  | none => some 0
  | some g => if len = 0 then some 0 else match s.translateE (dieOf p) g.1 false with
    | .leaf t => some (if !t.cmp then 0 else if g.2 then 1 else 2)
    | .fault _ _ => none

/-- A length that a transforming copy does not admit (R310). -/
def oddLen (kind : Option Nat) (len : Nat) : Bool := kind.getD 0 != 0 && len % 256 != 0

/-- The byte ranges of the copy that lie in local stores, for the interlock of R279. -/
def Sides.dstLocs (x : Sides) (n : Nat) : List Loc := if x.d.glob then [] else lsLocs x.d.col x.d.off n
def Sides.srcLocs (x : Sides) (n : Nat) : List Loc := if x.s.glob then [] else lsLocs x.s.col x.s.off n

/-- Commands of band `b` in the copy queue that its instructions placed there. -/
def Column.copyWaiting (c : Column) (b : Nat) : Nat :=
  (c.copyq.filter (fun k => decide (k.band = b) && k.tmpl.isNone)).length

/-- A checked command enters the copy queue, two entries per band (R21), or the group stalls. -/
def State.enqueueC (s : State) (op : COp) (d : BitVec 5) : Out :=
  if 2 ≤ s.me.copyWaiting s.me.band then s.stalled
  else
    let k : CCmd := { id := s.nextId, band := s.me.band, tmpl := none, tepc := s.ctx.pc, op := op, flow := Flow.start, parked := none }
    { (s.holdCmd.awaiting (.x d.toNat) s.nextId).modMe (fun c => { c with copyq := c.copyq ++ [k] }) with
        nextId := s.nextId + 1 }.issued

/-- CPY and CPY.S. (Log 59: DEDUCED, unsafe) -/
def cpyForm (stamp : Bool) (d a b : BitVec 5) (o : BitVec 3) (s : State) : Out :=
  s.need [.x a.toNat, .x b.toNat, .x d.toNat]
    (let len := fieldW (s.X d) 31 0
     let st := if stamp then some (fieldW (s.X d) 63 32) else none
     match copyCheck s.cur (s.X a) (s.X b) len stamp with
     | .error e => s.trap e.1 e.2
     | .ok x =>
       if oddLen (s.copyKind s.cur x len) len then s.trap 0x200 (w64 len)
       else if s.mxWait true (x.dstLocs (len + (if stamp then 8 else 0))) || s.mxWait false (x.srcLocs len) then s.stalled
       else s.enqueueC (.cpy (s.X a) (s.X b) len st o.toNat) d)

/-- Log 59: DEDUCED, unsafe. -/
def execCpy (d a b : BitVec 5) (o : BitVec 3) (s : State) : Out := cpyForm false d a b o s
def execCpyS (d a b : BitVec 5) (o : BitVec 3) (s : State) : Out := cpyForm true d a b o s

/-! ## The copy port (R315) -/

/-- The suspended command of band `b`; else its oldest queued instruction command, unless that is an LSWAP, which waits for
the LSE, or is held back by an order, and keeps the band's later ones behind it (R21, R145). (Log 67: DEDUCED, unsafe) -/
def Column.copyNext (c : Column) (held : CCmd → Bool) (b : Nat) : Option CCmd :=
  match c.csusp.find? (fun k => k.band == b) with
  | some k => some k
  | none => match c.copyq.find? (fun k => k.band == b && k.tmpl.isNone) with
    | some k => match k.op with
      | .cpy _ _ _ _ _ => if held k then none else some k
      | .lswap _ => none
    | none => none

/-- The oldest template copy of band `b`. (Log 67: DEDUCED, unsafe) -/
def Column.copyTmpl (c : Column) (b : Nat) : Option CCmd := c.copyq.find? (fun k => k.band == b && k.tmpl.isSome)

/-- The command that takes the port at a command boundary: of the highest band that has one, a template copy only where no
instruction command of its band waits (R315). A parked command that was suspended comes back to the port before one of a
lower band. (Log 67: DEDUCED, unsafe) -/
def Column.copyBest (c : Column) (held : CCmd → Bool) : Option CCmd :=
  ([3, 2, 1, 0].findSome? (fun b => (c.copyNext held b).or (c.copyTmpl b))).filter (fun k => k.parked.isNone)

/-- Take a command out of the copy queue and the list of suspended commands. -/
def Column.dropCopy (c : Column) (id : Nat) : Column :=
  { c with copyq := c.copyq.filter (fun k => decide (k.id ≠ id)), csusp := c.csusp.filter (fun k => decide (k.id ≠ id)),
           crun := c.crun.filter (fun k => decide (k.id ≠ id)) }

/-- A command that gives up the port: a raw copy resumes, a transforming one is abandoned and starts again (R315). -/
def CCmd.yield (k : CCmd) : CCmd := if k.flow.mode = some 0 then k else { k with flow := Flow.start }

/-- COPY_START: the port takes a command. A running or parked command of a lower band is suspended first. -/
def evCopyStart (p : Nat) (s : State) : Option State :=
  let c := s.col p
  match c.copyBest (fun k => s.cmdHeld p k.band k.id), c.crun with
  | none, _ => none
  | some k, none => some (s.setCol p { c.dropCopy k.id with crun := some k })
  | some k, some r =>
    if r.band < k.band then
      let c := c.dropCopy k.id
      some (s.setCol p { c with crun := some k, csusp := c.csusp ++ [r.yield] })
    else none

def execCopyStart (c : Nat) (s : State) : Out := event (evCopyStart c) s

/-! ## Completion (R311) -/

def Column.tpl (c : Column) (n : Nat) : Template := sget Template.empty c.templates n
def Column.setTpl (c : Column) (n : Nat) (t : Template) : Column :=
  { c with templates := sput Template.empty c.templates n t }

/-- The template's message returns to the head, its credit is returned, and it is disarmed (R307, R318). (Log 66:
DEDUCED, unsafe) -/
def State.failTemplate (s : State) (p n : Nat) : State :=
  let t := sget Template.empty (s.col p).templates n
  let s := s.modCol p (fun c => c.modChan t.trig (fun k =>
    { k with items := k.items.map (fun i => if i.taken = some (8 + n) then { i with taken := none } else i) }))
  s.modCol p (fun c =>
    let c := if (c.out t.doneKey).paced then c.addCredit t.doneKey 1 else c
    c.setTpl n { t with desc := none, running := none, hdr := 0, token := none })

/-- A copy ends with a trap that falls due (R307); a template only reports it. -/
def State.failCopy (s : State) (p : Nat) (k : CCmd) (cause : Nat) (tval : Word) : State :=
  let s' := s.modCol p (fun c => c.dropCopy k.id)
  match k.tmpl with
  | some n => (s'.reportOnly cause p tval (s.cmdTmsg p k.band k.tmpl) k.tepc).failTemplate p n
  | none => s'.modCol p (fun c => (c.cancelReq k.band k.id).deferAt k.band k.id cause 1 tval k.tepc)

/-- The running copy parks at a faulting page, or ends on a malformed entry. (Log 66: DEDUCED, unsafe) -/
def State.copyFault (s : State) (p : Nat) (k : CCmd) (e : Nat × Word) : State :=
  if parks e = false then s.failCopy p k e.1 e.2
  else
    let s := s.reportPark p e.1 e.2 (s.cmdTmsg p k.band k.tmpl) k.tepc
    s.modCol p (fun c => { c with crun := some { k.yield with parked := some e } })

/-- The token of a copy that has ended: into its register, or kept for the template's completion message. -/
def State.copyDone (s : State) (p : Nat) (k : CCmd) (token : Nat) : State :=
  let s := s.modCol p (fun c => c.dropCopy k.id)
  match k.tmpl with
  | none => s.modCol p (fun c => c.completeReq k.band k.id (BitVec.ofNat 512 token) 0 0)
  | some n => s.modCol p (fun c =>
      if (c.tpl n).running = some k.id then c.setTpl n { c.tpl n with token := some (w64 token) } else c)

/-- One side of a copy as a place. -/
def Acc.place (c : Acc) (p req : Nat) : Place := if c.glob then .va (dieOf p) req c.off else .ls c.col c.off

/-- The transfer of a copy command of the kind that it has begun with, or that its first page gives it. -/
def State.copyJob (s : State) (p : Nat) (k : CCmd) (x : Sides) (len : Nat) : Option Nat × Job :=
  let req := if k.tmpl.isSome then 2 else 1
  let kind := k.flow.mode.or (s.copyKind p x len)
  (kind, { p := p, tmsg := s.cmdTmsg p k.band k.tmpl, tepc := k.tepc, src := x.s.place p req, dst := x.d.place p req,
           mode := kind.getD 0, len := len, lo := 0, hi := len })

/-- The copy port makes one access of its running command (R148). (Log 63: DESIGN CHOICE, unsafe) -/
def State.copyTurn (s : State) (p : Nat) (wr : Bool) (g : Nat) : Option State :=
  match (s.col p).crun with
  | none => none
  | some k => match k.op with
    | .lswap _ => none
    | .cpy dst src len stamp _ => match copyCheck p dst src len stamp.isSome with
      | .error _ => none
      | .ok x =>
        let j := s.copyJob p k x len
        if k.parked.isSome || j.1.isNone || oddLen j.1 len then none
        else (j.2.move s { k.flow with mode := j.1 } wr g).map (fun m =>
          m.st.modCol p (fun c => { c with crun := some { k with flow := m.flow } }))

/-- COPY_COMPLETE: what is left of the running command's bytes is moved, and it completes, or parks at the faulting page.
A release at system scope waits for a host flush (R150, R158); the stamp follows the payload, rounded up to 8 bytes
(R311). (Log 63: DESIGN CHOICE, unsafe) -/
def evCopyComplete (p : Nat) (s : State) : Option State :=
  match (s.col p).crun with
  | none => none
  | some k => match k.op with
    | .lswap _ => none
    | .cpy dst src len stamp scope =>
      if k.parked.isSome || (scope == 4 && s.hostPending p) then none
      else match copyCheck p dst src len stamp.isSome with
        | .error e => some (s.failCopy p k e.1 e.2)
        | .ok x =>
          let r := s.copyJob p k x len
          let j := r.2
          let m := j.run { st := s, flow := { k.flow with mode := r.1 }, fault := none }
          let k' := { k with flow := m.flow }
          let l := if j.mode = 2 then m.flow.chunks j.nchunks (some 0) else []
          let bad := b2n (l.any (·.1.bad))
          let n := j.written m.flow
          let end_ (t : State) : Option State :=
            some ((t.badChunks p j.tmsg k.tepc x.s.off l).copyDone p k' (n + 2 ^ 32 * bad))
          if oddLen r.1 len then some (s.failCopy p k 0x200 (w64 len))
          else match m.fault, stamp with
            | some e, _ => some (m.st.copyFault p k' e)
            | none, none => end_ m.st
            | none, some v => match m.st.writePart p j.dst ((n + 7) / 8 * 8) (leBytes 8 (v + 2 ^ 32 * bad)) with
              | .error e => some (m.st.copyFault p k' e)
              | .ok t => end_ t

def execCopyComplete (c : Nat) (s : State) : Out := event (evCopyComplete c) s

/-! ## Templates (R317, R318) -/

/-- A descriptor against the template's configuration: reserved bits, release scope, trigger and completion channel.
(Log 65: DEDUCED, unsafe) -/
def descOk (t : Template) (v : Nat) : Bool :=
  fieldN v 191 182 == 0 && fieldN v 255 224 == 0 && decide (fieldN v 163 161 ≤ 4) && fieldN v 174 168 == t.trig &&
    fieldN v 181 175 == t.doneKey % 128

/-- The operands of a template's copy: destination, source, length, stamp. -/
def descDst (v : Nat) : Word := w64 (fieldN v 63 0)
def descSrc (v : Nat) : Word := w64 (fieldN v 127 64)
def descLen (v : Nat) : Nat := fieldN v 159 128

/-- CTARM. (Log 64: DEDUCED, unsafe; 65: DEDUCED, unsafe) -/
def execCtarm (a : BitVec 5) (n : BitVec 4) (s : State) : Out :=
  s.need [.x a.toNat]
    (s.onDesc (s.X a) (fun v s =>
      match copyCheck s.cur (descDst v) (descSrc v) (descLen v) (bitN v 160) with
      | .error e => s.trap e.1 e.2
      | .ok _ =>
        let t := sget Template.empty s.me.templates n.toNat
        if !descOk t v then s.trap 0x201 (s.X a)
        else (s.modMe (fun c => c.setTpl n.toNat { t with desc := some v })).issued))

/-- ctarm.off: no further copy of the template starts; its running copy completes. -/
def execCtarmOff (n : BitVec 4) (s : State) : Out :=
  (s.modMe (fun c => c.setTpl n.toNat { c.tpl n.toNat with desc := none })).issued

/-- OFFS: the trigger's first payload doubleword is added to the side that is not the own local store. (Log 65:
DEDUCED, unsafe) -/
def offsetSides (p : Nat) (off : Word) (dst src : Word) : Word × Word :=
  let own (a : Word) : Bool := match decodeAddr p a with
    | some c => ownRaw c
    | none => false
  if own dst then (if own src then (dst, src) else (dst, src + off)) else (dst + off, src)

/-- TEMPLATE_FIRE: an armed template takes the data message at the head of its trigger channel, checks its operands and
puts its copy before the port at its declared band. (Log 66: DEDUCED, unsafe) -/
def evTemplateFire (p n : Nat) (s : State) : Option State :=
  let c := s.col p
  let t := sget Template.empty c.templates n
  let k := c.chan t.trig
  match t.desc, k.items.head? with
  | some v, some it =>
    let out := c.out t.doneKey
    if t.running.isSome ∨ it.taken.isSome ∨ it.msg.kind ≠ 0 ∨ (out.paced = true ∧ out.credit = 0) then none
    else
      let off := if bitN v 164 then w64 (it.msg.payNat 0 8) else 0
      let ds := offsetSides p off (descDst v) (descSrc v)
      let len := descLen v
      let stamp := if bitN v 160 then some (fieldN v 223 192) else none
      let t' : Template := { t with desc := if bitN v 165 then t.desc else none, running := some s.nextId, hdr := it.msg.header }
      let c := c.setChan t.trig { k with items := { it with taken := some (8 + n) } :: k.items.tail }
      let c := if out.paced then c.modOut t.doneKey (fun o => { o with credit := o.credit - 1 }) else c
      let cmd : CCmd := { id := s.nextId, band := fieldN v 167 166, tmpl := some n, tepc := 0,
                          op := .cpy ds.1 ds.2 len stamp (fieldN v 163 161), flow := Flow.start, parked := none }
      let s' := { s.setCol p (c.setTpl n t') with nextId := s.nextId + 1 }
      match copyCheck p ds.1 ds.2 len stamp.isSome with
      | .error e => some (s'.failCopy p cmd e.1 e.2)
      | .ok x =>
        if oddLen (s.copyKind p x len) len then some (s'.failCopy p cmd 0x200 (w64 len))
        else some (s'.modCol p (fun c => { c with copyq := c.copyq ++ [cmd] }))
  | _, _ => none

def execTemplateFire (c n : Nat) (s : State) : Out := event (evTemplateFire c n) s

/-- Credit for `n` slots of channel `ch` of column `p` travels back to the channel's producer (R37). -/
def State.returnCredit (s : State) (p ch n : Nat) : State :=
  if n = 0 then s
  else { s with credits := s.credits ++ [{ col := ((s.col p).chan ch).producer, key := outKey p ch, n := n }] }

/-- Free the slots of the items that `drop` picks and return their credit; the SEQ counter of R101 follows the messages
that the channel's route brought. -/
def State.freeItems (s : State) (p ch : Nat) (drop : Item → Bool) : State :=
  let k := (s.col p).chan ch
  let gone := k.items.filter drop
  let next := gone.foldl (fun n i => if i.ord = 0 then n else (i.msg.seq + 1) % 2 ^ 16) k.next
  (s.modCol p (fun c => c.setChan ch { k with items := k.items.filter (fun i => !drop i), next := next })).returnCredit p ch
    (itemUnits gone)

/-- A message entering the injection queue takes its sequence number (R60, R42). -/
def Column.stamp (c : Column) (p dest ch kind len : Nat) (pay : List Byte) : Column × Msg :=
  let k := outKey dest ch
  let m : Msg := { dest := dest, chan := ch, kind := kind, len := len, seq := (c.out k).seq, ctx := c.ctx, src := p,
                   ferr := false, pay := pay }
  (c.modOut k (fun o => { o with seq := (o.seq + 1) % 2 ^ 16 }), m)

/-- TEMPLATE_COMPLETE: the trigger's slots are freed, and the completion message enters the injection queue. -/
def evTemplateComplete (p n : Nat) (s : State) : Option State :=
  let c := s.col p
  let t := sget Template.empty c.templates n
  match t.token with
  | none => none
  | some w =>
    if 32 ≤ c.inj.length then none
    else
      let s := s.freeItems p t.trig (fun i => i.taken == some (8 + n))
      let pay := leBytes 8 w.toNat ++ leBytes 8 t.hdr.toNat ++ List.replicate 40 0
      some (s.modCol p (fun c =>
        let r := c.stamp p (t.doneKey / 128) (t.doneKey % 128) 0 0 pay
        let sc := (c.out t.doneKey).scope
        let t' : Template := { t with running := none, hdr := 0, token := none }
        { r.1 with inj := r.1.inj ++ [Inj.msg r.2 sc] }.setTpl n t'))

def execTemplateComplete (c n : Nat) (s : State) : Out := event (evTemplateComplete c n) s

end Sys2Proof.Machine
end

