-- ==== Sys2Proof/Machine/Kv.lean ====
section
/-!
DEFINITION. The KV engine, its translation buffer, and the package's free-list engine (R29, R130, R323 to R328).
-/
namespace Sys2Proof.Machine

/-! ## The KV translation buffer (R324 to R326) -/

/-- The slot of the entry for (sid, b). -/
def ktbFind (t : List (Nat × Ktb)) (sid b : Nat) : Option Nat :=
  (t.find? (fun e => decide (e.2.sid = sid) && decide (e.2.b = b))).map (·.1)

def ktbAt (t : List (Nat × Ktb)) (slot : Nat) : Option Ktb := (t.find? (fun e => decide (e.1 = slot))).map (·.2)

/-- The slot a new entry takes and the pointer after it: the same key's, the lowest invalid one, else the resolved entry at
the round-robin pointer or the next one after it. -/
def ktbSlot (t : List (Nat × Ktb)) (rr sid b : Nat) : Option (Nat × Nat) :=
  match ktbFind t sid b with
  | some i => some (i, rr)
  | none => match (List.range 256).find? (fun i => (ktbAt t i).isNone) with
    | some i => some (i, rr)
    | none => ((List.range 256).map (fun i => (rr + i) % 256)).findSome? (fun i => match ktbAt t i with
      | some e => if e.idx.isSome then some (i, (i + 1) % 256) else none
      | none => none)

/-- Enter an entry; `by` is the command a pending one waits on. -/
def Column.ktbPut (c : Column) (sid b : Nat) (idx : Option Nat) (owner : Nat) : Option Column :=
  match ktbSlot c.ktb c.ktbrr sid b with
  | none => none
  | some (i, rr) => some { c with ktb := sins c.ktb i { sid := sid, b := b, idx := idx, owner := owner }, ktbrr := rr }

def Column.ktbDrop (c : Column) (f : Ktb → Bool) : Column := { c with ktb := c.ktb.filter (fun e => !f e.2) }

/-- SID and block number of a key operand. -/
def keySid (w : Word) : Nat := fieldW w 19 0
def keyBlock (w : Word) : Nat := fieldW w 35 20

/-- KTBFILL (R325): stalls while it names a pending entry. -/
def execKtbfill (a b : BitVec 5) (s : State) : Out :=
  s.need [.x a.toNat, .x b.toNat]
    (let idx := fieldW (s.X b) 23 0
     if s.kvcnt ≤ idx then s.trap 0x205 (w64 idx)
     else
       let sid := keySid (s.X a)
       let blk := keyBlock (s.X a)
       let pend := match (ktbFind s.me.ktb sid blk).bind (ktbAt s.me.ktb) with
         | some e => e.idx.isNone
         | none => false
       if pend then s.stalled
       else match s.me.ktbPut sid blk (some idx) 0 with
         | none => s.stalled
         | some c => (s.setCol s.cur c).issued)

/-- KTBINV: removes the entries `f` picks, and stalls while one of them is pending. -/
def ktbInv (f : Ktb → Bool) (s : State) : Out :=
  if s.me.ktb.any (fun e => f e.2 && e.2.idx.isNone) then s.stalled else (s.modMe (fun c => c.ktbDrop f)).issued

def execKtbinvOne (a : BitVec 5) (s : State) : Out :=
  s.need [.x a.toNat] (ktbInv (fun e => decide (e.sid = keySid (s.X a)) && decide (e.b = keyBlock (s.X a))) s)
def execKtbinvSeq (a : BitVec 5) (s : State) : Out :=
  s.need [.x a.toNat] (ktbInv (fun e => decide (e.sid = keySid (s.X a))) s)
def execKtbinvAll (s : State) : Out := ktbInv (fun _ => true) s

/-! ## KVAPP, FLPOP, FLPUSH at issue -/

/-- Enter the KV queue of two entries, or stall. -/
def State.enqueueK (s : State) (op : KOp) (d : BitVec 5) : Out :=
  if s.kvFull then s.stalled
  else
    let k : KCmd := { id := s.nextId, band := s.me.band, tepc := s.ctx.pc, op := op, flow := Flow.start, tab := false, parked := none }
    { (s.holdCmd.awaiting (.x d.toNat) s.nextId).modMe (fun c => { c with kvq := c.kvq ++ [k] }) with nextId := s.nextId + 1 }.issued

/-- KVAPP (R323): the issue checks, and the pending entry of a miss at the start of a block. (Log 151: DEDUCED,
unsafe) -/
def execKvapp (d a b : BitVec 5) (z : BitVec 3) (s : State) : Out :=
  s.need [.x a.toNat, .x b.toNat, .x d.toNat]
    (let e := 64 * 2 ^ z.toNat
     let tpb := 4096 / e
     let sid := keySid (s.X b)
     let p := fieldW (s.X b) 63 32
     let blk := p / tpb
     let o := p % tpb
     let base := (s.X d).toNat
     s.onEng (engAddr s.cur (s.X a) ownRaw 64 e) (fun c =>
       if base ≠ 0 ∧ 2 ^ 47 ≤ base then s.trap 0x200 (s.X d)
       else if base % 4 ≠ 0 then s.trap 0x102 (s.X d)
       else if 2 ^ 16 ≤ blk then s.trap 0x206 (w64 p)
       else match (ktbFind s.me.ktb sid blk).bind (ktbAt s.me.ktb) with
         | none =>
           if o ≠ 0 then s.trapLocal 0x203 (w64 (sid + 2 ^ 20 * blk))
           else if s.mxWait false (lsLocs s.cur c.off e) || s.kvFull then s.stalled
           else match s.me.ktbPut sid blk none s.nextId with
             | none => s.stalled
             | some col => (s.setCol s.cur col).enqueueK (.append c.off sid blk o z.toNat base true none) d
         | some t =>
           if s.mxWait false (lsLocs s.cur c.off e) then s.stalled
           else s.enqueueK (.append c.off sid blk o z.toNat base false t.idx) d))

def execFlpop (d : BitVec 5) (s : State) : Out := s.need [.x d.toNat] (s.enqueueK .pop d)

def execFlpush (d a : BitVec 5) (s : State) : Out :=
  s.need [.x a.toNat, .x d.toNat]
    (let idx := fieldW (s.X a) 23 0
     if s.kvcnt ≤ idx then s.trap 0x205 (w64 idx) else s.enqueueK (.push idx) d)

/-! ## The free-list ring (R327) -/

/-- The global address of the ring entry that is `n` after the head. (Log 73: DEDUCED, safe) -/
def State.ringVa (s : State) (n : Nat) : Nat := s.flbase + 4 * (if s.kvcnt = 0 then 0 else (s.flHead + n) % s.kvcnt)

/-- What an operation on the ring gives: a value with the state after, a fault in its translation, or nothing there. -/
inductive Ring where
  | ok (v : Nat) (s : State)
  | fault (e : Nat × Word)
  | no
  deriving DecidableEq, Repr

/-- Take the index at the head, at the free-list engine on die A (R438). -/
def State.ringPop (s : State) : Ring :=
  if s.flCount = 0 then .no
  else match s.reach 0 5 (s.ringVa 0) false with
    | .error e => .fault e
    | .ok l =>
      .ok (s.rdNat l 4 % 2 ^ 24)
        { s with flHead := if s.kvcnt = 0 then 0 else (s.flHead + 1) % s.kvcnt, flCount := s.flCount - 1 }

/-- Put an index at the tail; a full ring takes nothing. (Log 74: DEDUCED, unsafe) -/
def State.ringPush (s : State) (idx : Nat) : Ring :=
  if s.kvcnt ≤ s.flCount then .no
  else match s.reach 0 5 (s.ringVa s.flCount) true with
    | .error e => .fault e
    | .ok l => .ok idx { (s.wrNat l 4 (idx % 2 ^ 24)).corrupt 0 ((List.range 4).map l.add) with flCount := s.flCount + 1 }

/-- The operation that has stopped at the engine is there still: later ones wait for it, in the order in which they came
(R29, R439). -/
def State.fleStuck (s : State) : Option Nat :=
  match s.flStuck with
  | none => none
  | some (q, id) => if q = 0x3FF then (if s.flPushes.any (fun e => e.2.isSome) then some q else none)
      else if (s.col q).kvq.any (fun k => k.id == id) then some q else none

/-- The driver's pushes that have come to the engine are served in order, until one stops at a page of the ring; an entry
that is malformed drops its push. (Log 74: DEDUCED, unsafe) -/
def State.servePushes (s : State) : List (Nat × Option (Nat × Word)) → State
  | [] => { s with flPushes := [], flStuck := none }
  | (idx, _) :: t => match s.ringPush idx with
    | .no => s.servePushes t
    | .ok _ u => u.servePushes t
    | .fault e =>
      if parks e then
        { s.reportOnly e.1 0x3FF e.2 with
            flPushes := (idx, some e) :: t.map (fun x => (x.1, none)), flStuck := some (0x3FF, 0) }
      else (s.reportOnly e.1 0x3FF e.2).servePushes t

/-- Before an operation of column p is served: what came before it. None: something is stopped before it. -/
def State.fleTurn (s : State) (p : Nat) : Option State :=
  match s.fleStuck with
  | some q => if q = p then some s else none
  | none =>
    let s := s.servePushes s.flPushes
    if s.flStuck.isSome then none else some s

/-- Command `k` of column p has stopped at the engine on a page of the ring. -/
def State.fleStop (s : State) (p : Nat) (id : Nat) (e : Nat × Word) : State :=
  if parks e then { s with flStuck := some (p, id) } else s

/-! ## The KV engine (R21: in the order of its queue) -/

/-- The command at the head ends; its token is written. -/
def State.kvDone (s : State) (p : Nat) (k : KCmd) (token : Nat) : State :=
  { s.modCol p (fun c => { c with kvq := c.kvq.filter (fun j => decide (j.id ≠ k.id)) }.completeReq k.band k.id
      (BitVec.ofNat 512 token) 0 0) with flParked := s.flParked.filter (fun q => decide (q ≠ p)) }

/-- The pending entry that command `id` made is removed (R323). -/
def Column.ktbRemove (c : Column) (id : Nat) : Column := c.ktbDrop (fun e => e.idx.isNone && decide (e.owner = id))

/-- Command `k` leaves the queue with a trap that falls due (R307). -/
def State.kvTrap (s : State) (p : Nat) (k : KCmd) (cause path : Nat) (tval : Word) : State :=
  { s.modCol p (fun c => ({ c with kvq := c.kvq.filter (fun j => decide (j.id ≠ k.id)) }.cancelReq k.band k.id).deferAt k.band
      k.id cause path tval k.tepc) with flParked := s.flParked.filter (fun q => decide (q ≠ p)) }

/-- An append that waited on an entry that has been removed resolves as if it were issued now (R323): it makes a new
pending entry, or waits on the one made meanwhile, or misses with 0x203. -/
def State.kvAgain (s : State) (p : Nat) (k : KCmd) : State :=
  match k.op with
  | .append src sid b o z base false none =>
    if (ktbFind (s.col p).ktb sid b).isSome then s
    else if o ≠ 0 then s.kvTrap p k 0x203 0 (w64 (sid + 2 ^ 20 * b))
    else match (s.col p).ktbPut sid b none k.id with
      | none => s
      | some c => s.setCol p { c with kvq := c.kvq.map (fun j =>
          if j.id = k.id then { k with op := .append src sid b o z base true none } else j) }
  | _ => s

/-- Command `id` ends: the pending entry it made is removed, and each append that waits on it resolves, in queue order. -/
def State.kvRemoved (s : State) (p id : Nat) : State :=
  let s := s.modCol p (fun c => c.ktbRemove id)
  (s.col p).kvq.foldl (fun s k => s.kvAgain p k) s

/-- The command at the head ends with a trap that falls due (R307). -/
def State.kvFail (s : State) (p : Nat) (k : KCmd) (cause path : Nat) (tval : Word) : State :=
  (s.kvTrap p k cause path tval).kvRemoved p k.id

/-- A command of the queue is replaced. -/
def Column.setKv (c : Column) (k : KCmd) : Column := { c with kvq := c.kvq.map (fun j => if j.id = k.id then k else j) }

/-- The command at the head parks, keeping what it has done. (Log 72: DEDUCED, unsafe) -/
def State.kvPark (s : State) (p : Nat) (k : KCmd) (e : Nat × Word) : State :=
  s.modCol p (fun c => c.setKv { k with parked := some e })

/-- A fault of an access: no valid translation or no write permission parks the command, another is a deferred trap. -/
def State.kvFault (s : State) (p : Nat) (k : KCmd) (e : Nat × Word) : State :=
  if parks e then (s.reportPark p e.1 e.2 (s.cmdTmsg p k.band none) k.tepc).kvPark p k e
  else s.kvFail p k e.1 1 e.2

/-- The pop's index resolves the pending entry, and with it the appends that wait on the entry. -/
def Column.ktbResolve (c : Column) (id sid b idx : Nat) : Column :=
  { c with ktb := c.ktb.map (fun e => if e.2.idx = none ∧ e.2.owner = id then (e.1, { e.2 with idx := some idx }) else e),
           kvq := c.kvq.map (fun j => match j.op with
             | .append src sd bb o z base false none =>
               if sd = sid ∧ bb = b then { j with op := .append src sd bb o z base false (some idx) } else j
             | _ => j) }

/-- The transfer of an append's entry (R323). -/
def State.kvJob (s : State) (p : Nat) (k : KCmd) (src o z idx : Nat) : Job :=
  { p := p, tmsg := s.cmdTmsg p k.band none, tepc := k.tepc, src := .ls p src,
    dst := .va (dieOf p) 3 (s.kvbase + 4096 * idx + 64 * 2 ^ z * o), mode := 0, len := 64 * 2 ^ z, lo := 0, hi := 64 * 2 ^ z }

/-- The block-table write of an append (R323). -/
def State.kvTable (s : State) (p base b idx : Nat) : Except (Nat × Word) State :=
  s.writePart p (.va (dieOf p) 3 (base + 4 * b)) 0 (leBytes 4 idx)

/-- What is left of the writes of an append whose index is known: the block table, if it popped and one is given, and the
entry. A parked one resumes at the access that faulted (R439). (Log 72: DEDUCED, unsafe) -/
def State.kvWrite (s : State) (p : Nat) (k : KCmd) (src b o z base : Nat) (mine : Bool) (idx : Nat) : State :=
  let entry (s : State) (k : KCmd) : State :=
    let m := (s.kvJob p k src o z idx).run { st := s, flow := k.flow, fault := none }
    let k := { k with flow := m.flow }
    match m.fault with
    | some e => m.st.kvFault p k e
    | none => m.st.kvDone p k (idx + 2 ^ 24 * b + 2 ^ 40 * o + 2 ^ 52 * b2n mine)
  if mine && base != 0 && !k.tab then
    match s.kvTable p base b idx with
    | .error e => s.kvFault p k e
    | .ok t => entry t { k with tab := true }
  else entry s k

/-- The KV engine makes one access of the append at the head of its queue (R148): it reads or writes a granule of the entry, or
writes the block table, which stands as the granule after the entry's. -/
def State.kvTurn (s : State) (p : Nat) (wr : Bool) (g : Nat) : Option State :=
  match (s.col p).kvq with
  | [] => none
  | k :: _ => if s.cmdHeld p k.band k.id then none else match k.op, k.parked with
    | .append src _ b o z base mine (some idx), none =>
      if wr && g == 8 * 2 ^ z then
        if mine && base != 0 && !k.tab then
          match s.kvTable p base b idx with
          | .error _ => none
          | .ok t => some (t.modCol p (fun c => c.setKv { k with tab := true }))
        else none
      else ((s.kvJob p k src o z idx).move s k.flow wr g).map (fun m => m.st.modCol p (fun c => c.setKv { k with flow := m.flow }))
    | _, _ => none

/-- The pop of an append that made a pending entry: in order with the pops that are parked (R328). Its writes follow as
accesses of their own (R148). -/
def State.kvPop (s : State) (p : Nat) (k : KCmd) (src sid b o z base : Nat) : Option State :=
  let first := match s.flParked with
    | [] => true
    | q :: _ => q == p
  let parkHere : Option State :=
    if s.flParked.contains p then none
    else some ({ (s.reportOnly 0x204 p (w64 sid) (s.cmdTmsg p k.band none) k.tepc).kvPark p k (0x204, w64 sid) with
      flParked := s.flParked ++ [p] })
  if !first then (if s.flCount = 0 then parkHere else none)
  else match s.ringPop with
    | .no => parkHere
    | .fault e => some ((s.fleStop p k.id e).kvFault p k e)
    | .ok idx t =>
      let t := { t with flParked := t.flParked.filter (fun q => decide (q ≠ p)), flStuck := none }
      if t.kvcnt ≤ idx then some (t.kvFail p k 0x205 1 (w64 idx))
      else
        some (t.modCol p (fun c => (c.ktbResolve k.id sid b idx).setKv
          { k with op := .append src sid b o z base true (some idx), parked := none }))

/-- KVAPP_COMPLETE: the append at the head of the column's KV queue. A command parked on a fault waits for RETRY. (Log
72: DEDUCED, unsafe) -/
def evKvappComplete (p : Nat) (s : State) : Option State :=
  match (s.col p).kvq with
  | [] => none
  | k :: _ =>
    let stuck := match k.parked with
      | some (c, _) => decide (c ≠ 0x204)
      | none => false
    if stuck || s.cmdHeld p k.band k.id then none
    else match k.op with
      | .append src _ b o z base true (some idx) => some (s.kvWrite p k src b o z base true idx)
      | .append src sid b o z base true none => (s.fleTurn p).bind (fun s => s.kvPop p k src sid b o z base)
      | .append src _ b o z base false (some idx) => some (s.kvWrite p k src b o z base false idx)
      | .append _ _ _ _ _ _ false none => none
      | .pop => none
      | .push _ => none

def execKvappComplete (c : Nat) (s : State) : Out := event (evKvappComplete c) s

/-- FREE_LIST_OPERATION: the FLPOP or FLPUSH at the head of the column's KV queue. Pops that are parked are served before
this one. -/
def evFreeListOperation (p : Nat) (s : State) : Option State :=
  match (s.col p).kvq with
  | [] => none
  | k :: _ =>
    if k.parked.isSome || s.cmdHeld p k.band k.id then none
    else (s.fleTurn p).bind (fun s => match k.op with
      | .pop =>
        if s.flParked ≠ [] ∧ s.flCount ≠ 0 then none
        else match s.ringPop with
          | .no => some (s.kvDone p k (2 ^ 31))
          | .fault e => some ((s.fleStop p k.id e).kvFault p k e)
          | .ok idx t => some ({ t with flStuck := none }.kvDone p k (idx + 2 ^ 32 * t.flCount))
      | .push idx => match s.ringPush idx with
        | .no => some (s.kvDone p k (2 ^ 31 + 2 ^ 32 * s.flCount))
        | .fault e => some ((s.fleStop p k.id e).kvFault p k e)
        | .ok _ t => some ({ t with flStuck := none }.kvDone p k (2 ^ 32 * t.flCount))
      | .append _ _ _ _ _ _ _ _ => none)

def execFreeListOperation (c : Nat) (s : State) : Out := event (evFreeListOperation c) s

/-- The driver's push (R327, R409, R439): an index at or above KVCNT is reported (Table 11-7), a full ring discards the push,
a fault parks it, and behind an operation that has stopped it waits. (Log 74: DEDUCED, unsafe) -/
def State.hostPush (s : State) (v : Nat) : State :=
  let idx := v % 2 ^ 24
  if s.kvcnt ≤ idx then s.reportOnly 0x205 0x3FF (w64 idx)
  else if s.fleStuck.isSome then { s with flPushes := s.flPushes ++ [(idx, none)] }
  else s.servePushes (s.flPushes ++ [(idx, none)])

def execFreeListHostPush (v : Word) (s : State) : Out := barEvent (fun s => some (s.hostPush v.toNat)) s

end Sys2Proof.Machine
end

