-- ==== Sys2Proof/Machine/Control.lean ====
section
/-!
DEFINITION. Fetching a group (R190), control transfers, LOOP, traps, system registers and address conversion
(R213 to R223, R235, R236).
-/
namespace Sys2Proof.Machine

/-! ## Fetch (R190, Table 7-5) -/

/-- What a fetch gives: a cause with its SYS.TVAL, or the words of a group and the address after it. -/
inductive Fetched where
  | trap (cause : Nat) (tval : Word)
  | lone (w next : Nat)
  | pair (w w2 next : Nat)
  deriving DecidableEq, Repr

/-- SYS.TVAL of 0x006: the jumping word and bits [31:0] of the target. (Log 39: DEDUCED, unsafe) -/
def jumpTval (word : Word) (target : Nat) : Word :=
  w64 (word.toNat % 2 ^ 32 + 2 ^ 32 * (target % 2 ^ 20) + 2 ^ 52 * (target / 2 ^ 20 % 2 ^ 12))

/-- `fetch_group` for column `p`. `jump` is the jumping word of a group reached by a jump; `last` the address of the last
group issued. An uncorrectable word is cause 0x305 (R434). (Log 27: DEDUCED, unsafe) -/
def State.fetchGroup (s : State) (p pc : Nat) (jump : Option Word) (last : Nat) : Fetched :=
  if pc % 4 ≠ 0 ∨ 2 ^ 20 ≤ pc then
    match jump with
    | some j => .trap 0x006 (jumpTval j pc)
    | none => .trap 0x008 (w64 (2 ^ 32 * (last % 2 ^ 20)))
  else if s.errAt (.ls p pc) 4 = 2 then .trap 0x305 (errCause (.ls p pc)).2
  else
    let w := s.mem32 p pc
    if fieldN w 31 30 = 3 then
      match jump with
      | some j => .trap 0x006 (jumpTval j pc)
      | none => .trap 0x003 (wordTval w pc 0)
    else if fieldN w 31 30 = 0 then
      if pc % 8 ≠ 0 then .trap 0x002 (wordTval w pc 0)
      else if s.errAt (.ls p (pc + 4)) 4 = 2 then .trap 0x305 (errCause (.ls p (pc + 4))).2
      else
        let w2 := s.mem32 p (pc + 4)
        if fieldN w2 31 30 ≠ 3 then .trap 0x004 (wordTval w2 (pc + 4) 0)
        else if bitN w2 29 then .trap 0x005 (wordTval w2 (pc + 4) 0)
        else .pair w w2 (pc + 8)
    else .lone w (pc + 4)

/-- ILLEGAL_INSTRUCTION (R199, R202): the group traps with a cause of Table 7-5 and has no other effect. (Log 27:
DEDUCED, unsafe; 28: DEDUCED, unsafe) -/
def execIllegalInstruction (cause : Nat) (v : Word) (s : State) : Out :=
  if 1 ≤ cause ∧ cause ≤ 8 then s.trap cause v else s.idle

/-! ## Branches and jumps (R213 to R216) -/

/-- The next group is the one at `target`; without a link, a target outside the body ends an active loop. -/
def State.jumpTo (s : State) (target : Nat) : State :=
  { s.modBk (fun k => { k with loop := k.loop.bind (·.jumpTo target) }) with redirect := some target }

/-- The next group is the one at `target`; a call ends an active loop. -/
def State.callTo (s : State) (target : Nat) : State :=
  { s.modBk (fun k => { k with loop := none }) with redirect := some target }

/-- pc + 4 × offset, modulo 2^64. -/
def State.target (s : State) {n : Nat} (off : BitVec n) : Nat := (w64 s.ctx.pc + i64 (4 * off.toInt)).toNat

/-- bcc: `taken` of the two sources. -/
def branch (taken : Word → Word → Bool) (a b : BitVec 5) (o : BitVec 12) (s : State) : Out :=
  s.need [.x a.toNat, .x b.toNat] (if taken (s.X a) (s.X b) then (s.jumpTo (s.target o)).issued else s.issued)

def execBeq (a b : BitVec 5) (o : BitVec 12) (s : State) : Out := branch (fun x y => x == y) a b o s
def execBne (a b : BitVec 5) (o : BitVec 12) (s : State) : Out := branch (fun x y => x != y) a b o s
def execBlt (a b : BitVec 5) (o : BitVec 12) (s : State) : Out := branch (fun x y => x.slt y) a b o s
def execBge (a b : BitVec 5) (o : BitVec 12) (s : State) : Out := branch (fun x y => y.sle x) a b o s
def execBltu (a b : BitVec 5) (o : BitVec 12) (s : State) : Out := branch (fun x y => x.ult y) a b o s
def execBgeu (a b : BitVec 5) (o : BitVec 12) (s : State) : Out := branch (fun x y => y.ule x) a b o s

def execJal (o : BitVec 22) (s : State) : Out :=
  s.need [.x 31] (((s.result (.x 31) (BitVec.ofNat 512 s.ctx.next) 1).callTo (s.target o)).issued)

/-- JALR: with a target whose fetch traps, the link is not written; a call ends the loop whatever its target (R216). -/
def execJalr (d a : BitVec 5) (i : BitVec 12) (s : State) : Out :=
  s.need [.x a.toNat, .x d.toNat]
    (let t := (s.X a + i.signExtend 64).toNat
     match s.fetchGroup s.cur t (some 0) 0 with
     | .trap _ _ => (if d = 0#5 then s.jumpTo t else s.callTo t).issued
     | _ =>
       let s := s.result (.x d.toNat) (BitVec.ofNat 512 s.ctx.next) 1
       (if d = 0#5 then s.jumpTo t else s.callTo t).issued)

def execLoop (a : BitVec 5) (i : BitVec 12) (s : State) : Out :=
  s.need [.x a.toNat]
    (let n := fieldW (s.X a) 31 0
     let stop := s.ctx.pc + 4 * i.toNat
     if s.bk.loop.isSome ∨ stop ≤ s.ctx.next then s.trap 0x188 (w64 s.ctx.pc)
     else if n = 0 then { s with redirect := some stop }.issued
     else (s.modBk (fun k => { k with loop := some { start := s.ctx.next, stop := stop, n := n } })).issued)

/-! ## NOP, END, traps, events (R217 to R220) -/

def execNop (s : State) : Out := s.issued

/-- END: commit step 1 begins (R42); FIRING_COMMIT is step 2. -/
def execEndFiring (s : State) : Out :=
  s.trapBankOnly (s.modFire (fun f => { f with phase := .commit })).issued

def execTrap (a : BitVec 5) (p : BitVec 1) (n : BitVec 6) (s : State) : Out :=
  s.need [.x a.toNat] (if p = 1#1 then s.trap (0x40 + n.toNat) (s.X a) else s.trapLocal (0x40 + n.toNat) (s.X a))

/-- Outside the trap bank TRET traps with 0x189. -/
def State.inTrapBank (s : State) (k : Out) : Out := if s.me.inTrap then k else s.trap 0x189 (w64 s.ctx.raw)

def execTretRetry (s : State) : Out :=
  s.inTrapBank
    (let pc := fieldW s.me.tepc 19 0
     (s.leaveTrap pc (some (w64 s.ctx.raw)) pc).issued)

/-- tret.next: the trapping group counts as issued, reached in sequence and not a taken branch, for the LOOP rules of the
interrupted band; the group that follows is reached by a jump (R190). -/
def execTretNext (s : State) : Out :=
  s.inTrapBank
    (let pc := fieldW s.me.tepc 19 0
     let next := pc + (if fieldN (s.mem32 s.cur pc) 31 30 = 0 then 8 else 4)
     let jump := some (w64 s.ctx.raw)
     match (s.me.bank s.me.band).loop with
     | none => (s.leaveTrap next jump pc).issued
     | some l =>
       match l.after pc next with
       | none => .next ((s.leaveTrap next jump pc).takeTrap 0x188 (w64 l.stop) false pc false)
       | some (l', nx, _) =>
         let s' := s.modMe (fun c => c.modBank c.band (fun k => { k with loop := l' }))
         (s'.leaveTrap nx jump pc).issued)

/-- tret.abort: the interrupted firing aborts with the recorded cause. -/
def execTretAbort (s : State) : Out :=
  s.inTrapBank
    (let c := s.me
     let cause := fieldW c.cause 9 0
     .next { s.modMe (fun c => c.beginAbort c.band cause (abortPath cause) c.tval (fieldW c.tepc 19 0)
       (c.tepc.getLsbD 20) true) with last := .trapped })

/-- The event match of Roll Call on a SNAP (R470). -/
def State.matchSnap (s : State) (col code : Nat) : State :=
  match s.proctor.armed with
  | none => s
  | some m =>
    if decide (fieldN m 14 8 = code) && (bitN m 26 || decide (fieldN m 25 16 = col)) then s.rollCall 3 col code else s

def execSnap (a : BitVec 5) (c : BitVec 7) (s : State) : Out :=
  s.need [.x a.toNat]
    (((s.modMe (fun k => { k with snapv := s.X a })).matchSnap s.cur c.toNat).issued)

/-! ## System registers (R221 to R223, Table 8-3) -/

/-- SYS.HTAB[h] (Table 4-5). -/
def Handle.word (h : Handle) : Word :=
  w64 (h.layer + 2 ^ 3 * h.form + 2 ^ 5 * h.fmt + 2 ^ 9 * b2n h.valid + 2 ^ 10 * b2n h.moving + 2 ^ 12 * h.base +
    2 ^ 23 * h.len + 2 ^ 48 * h.inuse)

/-- SYS.COLID (Table 1-1). (Log 19: DESIGN CHOICE, unsafe) -/
def State.colid (s : State) (p : Nat) : Word :=
  w64 (p % 256 + 2 ^ 8 * s.proctor.chainPos + 2 ^ 10 * cposOf p + 2 ^ 12 * s.proctor.chainLen)

/-- SYS.FIRE (Table 2-3). -/
def Column.fireWord (c : Column) (b : Nat) : Word :=
  match c.firing b with
  | none => 0
  | some f => w64 (f.ent.hidx + 2 ^ 6 * f.level + 2 ^ 12 * b + 2 ^ 14 * b2n f.boost + 2 ^ 15 * b2n f.refire +
      2 ^ 16 * b2n c.inTrap + 2 ^ 32 * (f.ent.budget - f.spent))

/-- The value a system register reads as. (Log 10: DESIGN CHOICE, unsafe; 38: DEDUCED, unsafe) -/
def State.sysRead (s : State) (n : Nat) : Word :=
  let c := s.me
  let b := c.bank c.band
  match n with
  | 0x000 => s.colid s.cur
  | 0x001 => c.fireWord c.band
  | 0x002 => (c.firing c.band).elim c.tmsg (·.trig)
  | 0x003 => c.hold
  | 0x004 => c.cause
  | 0x005 => c.tval
  | 0x006 => c.tepc
  | 0x007 => c.tvec
  | 0x008 => w64 c.cycle
  | 0x009 => c.snapv
  | 0x010 => w64 c.numst
  | 0x011 => w64 c.ftzcnt
  | 0x012 => w64 c.promo
  | 0x013 => w64 c.earlyp
  | 0x018 => w64 s.kvbase
  | 0x019 => w64 s.kvcnt
  | 0x01A => w64 s.flbase
  | 0x01B => w64 s.ssbase
  | 0x01C => w64 s.sslen
  | 0x020 => c.badlist
  | n =>
    if 0x40 ≤ n ∧ n < 0x50 then sget 0x3F800000#64 c.wscale (n - 0x40)
    else if 0x50 ≤ n ∧ n < 0x54 then sget 0 b.saga (n - 0x50)
    else if 0x54 ≤ n ∧ n < 0x58 then sget 0 b.sagb (n - 0x54)
    else (sget Handle.empty c.htab (n - 0x100)).word

def execSysrd (d : BitVec 5) (r : BitVec 12) (s : State) : Out := opX 2 (s.sysRead r.toNat) d s

/-- Bits of a value that a mask keeps. -/
def keep (v : Word) (m : Nat) : Word := v &&& w64 m

/-- SYS.HOLD, W1C: released handlers fire next with SYS.FIRE.REFIRE (R46). -/
def Column.releaseHold (c : Column) (v : Word) : Column :=
  { c with hold := c.hold &&& ~~~ v, refire := c.refire ||| (c.hold &&& v) }

/-- The handle an enabled SAG names, if it is enabled. -/
def sagHandle (a : Word) : Option Nat := if a.getLsbD 8 then some (fieldW a 7 0) else none

/-- INUSE of a handle rises or falls by one (R124). -/
def Column.useHandle (c : Column) (up : Bool) (h : Option Nat) : Column :=
  match h with
  | none => c
  | some h =>
    let e := sget Handle.empty c.htab h
    { c with htab := sput Handle.empty c.htab h { e with inuse := if up then e.inuse + 1 else e.inuse - 1 } }

/-- A write of SYS.SAGA[n] of band `b`: the in-use count moves with EN and HANDLE (R124, R128). -/
def Column.writeSaga (c : Column) (b n : Nat) (v : Word) : Column :=
  let v := keep v 0xFFFFFFFFFFFF87FF
  let old := sagHandle (sget 0 (c.bank b).saga n)
  let new := sagHandle v
  let c := c.modBank b (fun k => { k with saga := sput 0 k.saga n v })
  if old = new then c else (c.useHandle false old).useHandle true new

/-- Table 11-3: BASE[2:0] are stored as zero, OVF is W1C. -/
def badlistWrite (old v : Word) : Word :=
  keep v 0x00000FFFFFFFFFF8 ||| (old &&& ~~~ v &&& w64 (2 ^ 44))

/-- What a write does to the issuing column; a write to a read-only register is ignored (R10). What the same cycle adds to
a flag or a counter is added after the write (R176). (Log 37: DEDUCED, unsafe) -/
def Column.sysWrite (c : Column) (n : Nat) (v : Word) : Column :=
  match n with
  | 0x003 => c.releaseHold v
  | 0x007 => { c with tvec := keep v 0x1FFFF8 }
  | 0x010 => { c with numst := (w64 c.numst &&& ~~~ v).toNat ||| c.cyFlags }
  | 0x011 => { c with ftzcnt := min (v.toNat % 2 ^ 32 + c.cyFtz) 0xFFFFFFFF }
  | 0x012 => { c with promo := max 1 (min 1024 (v.toNat % 2 ^ 11)) }
  | 0x013 => { c with earlyp := min (v.toNat % 2 ^ 32 + c.cyEarly) 0xFFFFFFFF }
  | 0x020 => { c with badlist := badlistWrite c.badlist v }
  | n =>
    if 0x41 ≤ n ∧ n < 0x4F then { c with wscale := sput 0x3F800000#64 c.wscale (n - 0x40) (keep v 0xFFFFFFFF) }
    else if 0x50 ≤ n ∧ n < 0x54 then c.writeSaga c.band (n - 0x50) v
    else if 0x54 ≤ n ∧ n < 0x58 then
      c.modBank c.band (fun k => { k with sagb := sput 0 k.sagb (n - 0x54) v })
    else c

/-- Matrix commands a write waits for: every one for SYS.PROMO (R184), those that consume from SAG n for its registers
(R128). -/
def Column.sysWait (c : Column) (n : Nat) : Bool :=
  if n = 0x012 then !c.mxCmds.isEmpty
  else if 0x50 ≤ n ∧ n < 0x58 then
    c.mxCmds.any (fun m => match m with
      | .mma _ gs => gs.any (fun g => decide (g.sag = (n - 0x50) % 4))
      | _ => false)
  else false

def execSyswr (d : BitVec 5) (r : BitVec 12) (s : State) : Out :=
  s.need [.x d.toNat]
    (if s.me.sysWait r.toNat then s.stalled
     else (s.modMe (fun c => c.sysWrite r.toNat (s.X d))).issued)

/-! ## Address conversion (R111, R235, R236) -/

/-- In no aperture. -/
def noAddr : Word := BitVec.allOnes 64

def acvtOff (p : Nat) (a : Word) : Word :=
  match decodeAddr p a with
  | none => noAddr
  | some c => if c.glob then a else if c.clu then w64 (a.toNat % 2 ^ 26) else w64 (a.toNat % 2 ^ 24)

/-- An offset below 2^n placed at `base`. -/
def acvtTo (n base : Nat) (a : Word) : Word := if a.toNat < 2 ^ n then w64 (base + a.toNat) else noAddr

def acvtLc (p : Nat) (a : Word) : Word :=
  match decodeAddr p a with
  | some c => if c.glob then noAddr else if c.clu then a
      else w64 (0xF100000000000000 + 2 ^ 24 * cposOf p + a.toNat % 2 ^ 24)
  | none => noAddr

def acvtCl (p : Nat) (a : Word) : Word :=
  match decodeAddr p a with
  | some c => if c.glob then noAddr else if !c.clu then a
      else if c.own then w64 (0xF000000000000000 + a.toNat % 2 ^ 24) else noAddr
  | none => noAddr

def atestWord (p : Nat) (a : Word) : Word :=
  match decodeAddr p a with
  | none => 0
  | some c =>
    if c.glob then 1
    else w64 (spaceCode p a + 2 ^ 4 * c.win + (if c.clu then 2 ^ 8 * c.slot else 0))

def execAcvtOff (d a : BitVec 5) (s : State) : Out := opXX 1 (acvtOff s.cur) d a s
def execAcvtG (d a : BitVec 5) (s : State) : Out := opXX 1 (acvtTo 47 0) d a s
def execAcvtL (d a : BitVec 5) (s : State) : Out := opXX 1 (acvtTo 24 0xF000000000000000) d a s
def execAcvtC (d a : BitVec 5) (s : State) : Out := opXX 1 (acvtTo 26 0xF100000000000000) d a s
def execAcvtLc (d a : BitVec 5) (s : State) : Out := opXX 1 (acvtLc s.cur) d a s
def execAcvtCl (d a : BitVec 5) (s : State) : Out := opXX 1 (acvtCl s.cur) d a s
def execAtest (d a : BitVec 5) (s : State) : Out := opXX 1 (atestWord s.cur) d a s

end Sys2Proof.Machine
end

