-- ==== Sys2Proof/Machine/Seed.lean ====
section
/-!
DEFINITION. Seeded tiles: the record, the generator, the expansion (R298, R299) and the search of SEEDFIT (R302).
-/
namespace Sys2Proof.Machine

/-! ## The record (Table 10-3), as the number its 64 bytes hold -/

def recSeed (r : Nat) : Nat := fieldN r 63 0
def recK (r : Nat) : Nat := fieldN r 68 64
def recScale (r : Nat) : Nat := fieldN r 127 96
def recCoef (r j : Nat) : Nat := r / 2 ^ (128 + 16 * j) % 2 ^ 16

def recMalformed (r : Nat) : Bool :=
  let k := recK r
  k == 0 || decide (16 < k) || fieldN r 95 69 != 0 || fieldN r 511 384 != 0 ||
    (List.range 16).any (fun j => decide (k ≤ j) && recCoef r j != 0)

/-! ## The generator (R299) -/

/-- lfsr_step: the bit and the new state. -/
def lfsrStep (st : Nat) : Nat × Nat :=
  (st % 2, if st % 2 = 1 then (st / 2) ^^^ 0x800000000000000D else st / 2)

def lfsrSkip : Nat → Nat → Nat
  | 0, st => st
  | n + 1, st => lfsrSkip n (lfsrStep st).2

/-- The next `n` basis entries from a state. -/
def basisFrom : Nat → Nat → List Int
  | 0, _ => []
  | n + 1, st =>
    let lo := lfsrStep st
    let hi := lfsrStep lo.2
    (match 2 * hi.1 + lo.1 with
      | 1 => 1
      | 2 => -1
      | _ => 0) :: basisFrom n hi.2

/-- The state basis tile j starts from. -/
def basisStart (seed j : Nat) : Nat :=
  let st := seed ^^^ ((j + 1) * 0x9E3779B97F4A7C15 % 2 ^ 64)
  if st = 0 then 1 else st

/-- Entries `first` to `first` + n − 1 of basis tile j. -/
def basis (seed j first n : Nat) : List Int := basisFrom n (lfsrSkip (2 * first) (basisStart seed j))

/-! ## Expansion -/

/-- A sum of exact products, folded from its first term. -/
def sumVals : List (Val × Nat) → Val × Nat
  | [] => (.fin false 0 0, 0)
  | a :: t => t.foldl (fun z x =>
      let r := Val.add 0 z.1 x.1
      (r.1, z.2 ||| x.2 ||| r.2)) a

/-- Transpose lists of equal length n. -/
def columnsOf {α : Type} (n : Nat) (d : α) (l : List (List α)) : List (List α) :=
  match n with
  | 0 => []
  | n + 1 => l.map (fun r => r.headD d) :: columnsOf n d (l.map (·.drop 1))

/-- w(e) for n entries from `first` on: codes in BF16; the expander sets only NV and OF. (Log 56: DEDUCED, unsafe) -/
def expandRec (r first n : Nat) : List Rnd :=
  let k := recK r
  let coef := (List.range k).map (fun j => BF16.decode (recCoef r j))
  let scale := FP32.decode (recScale r)
  let bs := (List.range k).map (fun j => basis (recSeed r) j first n)
  (columnsOf n 0 bs).map (fun col =>
    let s := sumVals (zipC (fun c b => Val.mul c (Val.ofInt b)) coef col)
    let p := Val.mul scale s.1
    let w := BF16.round p.1 0
    { w with fl := (w.fl ||| p.2 ||| s.2) &&& (NV ||| OF) })
where
  zipC {α β γ : Type} (f : α → β → γ) : List α → List β → List γ
    | a :: t, b :: u => f a b :: zipC f t u
    | _, _ => []

/-! ## SEEDFIT (R302): values in units of 2^−149 -/

def dot : List Int → List Int → Int
  | a :: t, b :: u => a * b + dot t u
  | _, _ => 0

def zipI (f : Int → Int → Int) : List Int → List Int → List Int
  | a :: t, b :: u => f a b :: zipI f t u
  | _, _ => []

/-- One column of a fraction-free elimination of an augmented matrix; none when no pivot is left. -/
def pivotCol (m : List (List Int)) (c : Nat) (prev : Int) : Option (List (List Int) × Int) :=
  let at_ (r : List Int) : Int := r[c]?.getD 0
  match (List.range m.length).find? (fun i => decide (c ≤ i) && decide (at_ (m[i]?.getD []) ≠ 0)) with
  | none => none
  | some p =>
    let rp := m[p]?.getD []
    let rc := m[c]?.getD []
    let piv := at_ rp
    let row (i : Nat) (r : List Int) : List Int :=
      if i = c then rp
      else
        let r := if i = p then rc else r
        zipI (fun a b => (piv * a - at_ r * b) / prev) r rp
    some ((List.range m.length).map (fun i => row i (m[i]?.getD [])), piv)

def eliminate (k : Nat) : Nat → List (List Int) × Int → Option (List (List Int))
  | 0, m => some m.1
  | n + 1, m => match pivotCol m.1 (k - (n + 1)) m.2 with
    | none => none
    | some m' => eliminate k n m'

/-- A quotient in units of 2^−149, as a value that rounds as the exact one. -/
def quotVal (p q : Int) : Val :=
  if p = 0 then .fin false 0 0
  else (Val.div (.fin (decide (p < 0) != decide (q < 0)) p.natAbs (-149)) (.fin false q.natAbs 0)).1

def units149 (v : Val) : Int :=
  match v with
  | .fin s m e => toUnits s m e (-149)
  | _ => 0

/-- A candidate: its index, seed, coefficients, and residual in units of 2^−298, none when infinite. -/
structure Fit where
  i : Nat
  seed : Nat
  coef : List Nat
  res : Option Nat
  deriving DecidableEq, Repr

/-- One candidate, with the flags of its roundings; none when G is singular. (Log 150: DEDUCED, unsafe) -/
def fitOne (t : List Int) (k i seed : Nat) : Option Fit × Nat :=
  let b := (List.range k).map (fun j => basis seed j 0 1024)
  let m := b.map (fun r => b.map (dot r) ++ [dot r t])
  match eliminate k k (m, 1) with
  | none => (none, 0)
  | some m =>
    let rs := (List.range k).map (fun j =>
      let r := m[j]?.getD []
      BF16.round (quotVal (r[k]?.getD 0) (r[j]?.getD 1)) 0)
    let fl := rs.foldl (fun z r => z ||| r.fl) 0
    let cs := rs.map (fun r => BF16.decode r.code)
    if cs.all Val.isFin then
      let ci := cs.map units149
      let ws := (columnsOf 1024 0 b).map (fun col =>
        let v := dot ci col
        BF16.round (.fin (decide (v < 0)) v.natAbs (-149)) 0)
      let fl := ws.foldl (fun z r => z ||| r.fl) fl
      let wv := ws.map (fun r => BF16.decode r.code)
      let res := if wv.all Val.isFin then
          some ((zipI (fun x w => (x - w) * (x - w)) t (wv.map units149)).foldl (fun z x => z + x.natAbs) 0)
        else none
      (some { i := i, seed := seed, coef := rs.map (·.code), res := res }, fl)
    else (some { i := i, seed := seed, coef := rs.map (·.code), res := none }, fl)

def Fit.better (a : Fit) : Option Fit → Bool
  | none => true
  | some b => match a.res, b.res with
    | some x, some y => decide (x < y)
    | some _, none => true
    | none, _ => false

/-- The search over `n` candidates from index i. -/
def fitFrom (t : List Int) (k base : Nat) : Nat → Nat → Option Fit × Nat → Option Fit × Nat
  | 0, _, b => b
  | n + 1, i, b =>
    let c := fitOne t k i ((base + i) % 2 ^ 64)
    let b' := match c.1 with
      | some f => if f.better b.1 then some f else b.1
      | none => b.1
    fitFrom t k base n (i + 1) (b', b.2 ||| c.2)

/-- SEEDFIT of a target, a parameter block and n: X(d), the new record where one is written, the flags set. (Log 58:
DEDUCED, unsafe) -/
def seedFit (t : List Val) (blk n : Nat) : Nat × Option Nat × Nat :=
  let k := recK blk
  if k = 0 ∨ 16 < k then (2 ^ 52, none, 0)
  else if t.all Val.isFin = false then (2 ^ 53, none, NV)
  else
    let r := fitFrom (t.map units149) k (recSeed blk) (2 ^ n) 0 (none, 0)
    match r.1 with
    | none => (2 ^ 54 + 0x7F800000, none, r.2 &&& (NV ||| OF ||| NX))
    | some f =>
      let q := FP32.round (match f.res with
        | some x => .fin false x (-298)
        | none => .inf false) 0
      let coef := f.coef.foldr (fun c z => c + 2 ^ 16 * z) 0
      (q.code + 2 ^ 32 * f.i, some (f.seed + 2 ^ 64 * k + 2 ^ 96 * 0x3F800000 + 2 ^ 128 * coef),
       (r.2 ||| q.fl) &&& (NV ||| OF ||| NX))

end Sys2Proof.Machine
end

