-- ==== Sys2Proof/Machine/Matrix.lean ====
section
/-!
DEFINITION. Matrix commands: the issue checks and the queue (R277 to R297, R301, R302), and the steps the matrix unit makes
of them: MATRIX_COMMAND_START, MATRIX_STEP, MATRIX_COMMAND_COMPLETE (R177 to R183, R394).
-/
namespace Sys2Proof.Machine

/-! ## Queue (R21, R277) -/

/-- A checked command enters the matrix queue of two entries, or the group stalls; `dst` is held pending until the command
completes. (Log 52: DEDUCED, unsafe) -/
def State.enqueueM (s : State) (op : MOp) (dst : Option Reg) : Out :=
  if 2 ≤ s.me.mq.length then s.stalled
  else
    let c : MCmd := { id := s.nextId, band := s.me.band, tmsg := s.fire.elim 0 (·.trig), tepc := s.ctx.pc, aw := s.ctx.aw,
                      op := op, begun := false, grp := 0, step := 0, from_ := s.me.cycle, due := 0, again := false,
                      promoted := false, reads := [], out := [], res := none }
    let s' := match dst with
      | some r => s.awaiting r s.nextId
      | none => s
    { s'.modMe (fun k => { k with mq := k.mq ++ [c] }) with nextId := s.nextId + 1 }.issued

/-- The tile is in the handler's declared set; in the trap bank the set is empty (R283). -/
def State.onTile (s : State) (t : BitVec 3) (k : Out) : Out :=
  if !s.me.inTrap && bitN (s.fire.elim 0 (·.ent.acc)) t.toNat then k else s.trap 0x080 (w64 t.toNat)

/-- The mode tile t has when a command issued now is carried out: the last queued command that sets it, else its own.
(Log 51: DEDUCED, unsafe) -/
def Column.modeOf (c : Column) (t : Nat) : Bool :=
  (c.mrun.toList ++ c.mq).foldl (fun m k => match k.op with
    | .zero t' fl => if t' = t then fl else m
    | .scale t' _ _ _ => if t' = t then true else m
    | _ => m) (sget Tile.zero c.tiles t).fl

/-! ## Weight handles and SAGs (R122, R127) -/

/-- Raw bytes of a 32 × 32 tile (Table 4-6). -/
def tileSize (fmt : Nat) : Nat := 128 * winBits fmt

/-- Key of the first byte of a handle's contents. -/
def Handle.at_ (h : Handle) : Nat := h.layer * 2 ^ 23 + h.base * 4096

def Column.handle (c : Column) (h : Nat) : Handle := sget Handle.empty c.htab h

def Column.ntiles (c : Column) (h : Handle) : Nat :=
  match h.form with
  | 1 => h.len * 64
  | 2 => leNat (c.stackRead h.at_ 4)
  | _ => h.len * 4096 / tileSize h.fmt

/-- The tile number at a stream position. -/
def sagTile (a b : Word) (pos : Nat) : Int :=
  let cnt (n : Nat) := if n = 0 then 65536 else n
  let ni := cnt (fieldW a 47 32)
  let no := cnt (fieldW b 15 0)
  let i := pos % (ni * no)
  (fieldW a 31 15 : Int) + ((i % ni : Nat) : Int) * sx 16 (fieldW a 63 48) + ((i / ni : Nat) : Int) * sx 16 (fieldW b 31 16)

/-- The tiles a command consumes from stream position `pos` on, or the first tile out of range. -/
def sagTiles (a b : Word) (nt : Nat) : Nat → Nat → Except Int (List Nat)
  | 0, _ => .ok []
  | n + 1, pos =>
    let t := sagTile a b pos
    if t < 0 ∨ (nt : Int) ≤ t then .error t
    else match sagTiles a b nt n ((pos + 1) % 2 ^ 32) with
      | .ok l => .ok (t.toNat :: l)
      | .error e => .error e

/-! ## Vertical reads (R296, R461 to R463) -/

/-- One vertical read: the stack bytes read, and the causes it gives, 0x300 for a double error, 0x301 for bad data (R296). -/
structure BRead where
  at_ : Nat
  len : Nat
  causes : List Nat
  deriving DecidableEq, Repr

/-- A vertical read of `n` bytes at `a`; `bad`: its contents are malformed. -/
def Column.bRead (c : Column) (a n : Nat) (bad : Bool) : BRead :=
  { at_ := a, len := n, causes := (if c.stackBad a n then [0x300] else []) ++ (if bad then [0x301] else []) }

/-- SYS.TVAL of 0x300, 0x301 and 0x303. (Log 54: DEDUCED, unsafe) -/
def poisonTval (hn : Nat) (h : Handle) (t acc rows : Nat) : Word :=
  w64 (hn + 2 ^ 8 * h.layer + 2 ^ 11 * t + 2 ^ 28 * acc + 2 ^ 32 * rows)

/-- Account for a vertical read: corrected words are journalled (0x303), each cause it gives is reported (R296, R442).
(Log 54: DEDUCED, unsafe; 56: DEDUCED, unsafe) -/
def State.bAccount (s : State) (p : Nat) (tmsg : Word) (tepc acc hn t rows : Nat) (b : BRead) : State :=
  let c := s.col p
  let h := c.handle hn
  let s := s.stackErrs p b.at_ b.len
  let s := if c.stackFixed b.at_ b.len then s.journal 0 0x303 p false (poisonTval hn h t 0 0) else s
  b.causes.foldl (fun s k => s.reportBoth k p (poisonTval hn h t acc rows) tmsg tepc) s

/-! ## MMA and MMAG (R285, R287, R291, R292) -/

def fourBit (w : Nat) : Bool := w == 1 || w == 2 || w == 5

/-- Checks 1 to 3 of R285: aperture, window 15, a space and window that `admits` takes. Where R294, R301 and R302 give 0x082 for
every other window, window 15 still has the 0x101 of R117. (Log 146: DEDUCED, unsafe) -/
def mxAddr (p : Nat) (a : Word) (admits : Acc → Bool) : Except (Nat × Word) Acc :=
  match decodeAddr p a with
  | none => .error (0x100, a)
  | some c =>
    if !c.glob && c.win == 15 then .error (0x101, a)
    else if admits c then .ok c
    else .error (0x082, a)

/-- Every check of R291 after the tile check, for the rows row0 to row0 + rows − 1 and SAG `g`. (Log 51: DEDUCED,
unsafe) -/
def State.mmaGroup (s : State) (t : Nat) (base : Word) (steps stride g row0 rows : Nat) : Except (Nat × Word) MGroup :=
  match mxAddr s.cur base (fun c => !c.glob && c.win != 0) with
  | .error e => .error e
  | .ok c =>
    let bk := s.me.bank s.me.band
    let a := sget 0 bk.saga g
    let b := sget 0 bk.sagb g
    let hn := fieldW a 7 0
    let h := s.me.handle hn
    let fb := if h.form = 1 then 11 else h.fmt
    let md := s.me.modeOf t
    let k := if fourBit c.win && fourBit fb then 2 else 1
    let n := ceilDiv (steps * k * winBits c.win) 8
    let al := winAlign c.win
    let kr := fieldW a 10 9
    let rt := 32 / 2 ^ kr
    if a.getLsbD 8 = false ∨ kr = 3 ∨ h.valid = false then .error (0x106, w64 (g + 4 * hn))
    else if (winInt c.win && winInt fb) = md then
      .error (0x081, w64 (t + 2 ^ 3 * c.win + 2 ^ 7 * fb + 2 ^ 11 * b2n md))
    else if c.off % al ≠ 0 ∨ stride % al ≠ 0 then .error (0x102, base)
    else if 2 ^ 20 < c.off + (row0 + rows - 1) * stride + n then .error (0x104, base)
    else if steps * k % rt ≠ 0 ∨ ((c.win = 6 ∨ c.win = 7) ∧ steps * k % 4 ≠ 0) then
      .error (0x084, w64 (steps + 2 ^ 16 * rt + 2 ^ 22 * (k - 1)))
    else match sagTiles a b (s.me.ntiles h) (steps * k / rt) (fieldW b 63 32) with
      | .error e => .error (0x105, w64 (g + 4 * hn + 2 ^ 10 * um 32 e))
      | .ok ts => .ok { sag := g, row0 := row0, rows := rows, fa := c.win, acol := c.col, aoff := c.off, stride := stride,
                        steps := steps, k := k, fb := fb, handle := hn, rt := rt, tiles := ts }

/-- POS of each group's SAG advances by the tiles consumed (R127). -/
def Column.advance (c : Column) (gs : List MGroup) : Column :=
  gs.foldl (fun c g => c.modBank c.band (fun k =>
    let b := sget 0 k.sagb g.sag
    let pos := (fieldW b 63 32 + g.tiles.length) % 2 ^ 32
    { k with sagb := sput 0 k.sagb g.sag (w64 (b.toNat % 2 ^ 32 + 2 ^ 32 * pos)) })) c

/-- The groups' checks in ascending order. -/
def State.mmaGroups (s : State) (t : Nat) (base : Word) (steps stride : Nat) :
    List (Nat × Nat × Nat) → Except (Nat × Word) (List MGroup)
  | [] => .ok []
  | (g, row0, rows) :: l =>
    if rows = 0 then s.mmaGroups t base steps stride l
    else match s.mmaGroup t base steps stride g row0 rows with
      | .error e => .error e
      | .ok m => match s.mmaGroups t base steps stride l with
        | .error e => .error e
        | .ok r => .ok (m :: r)

/-- The vertical read of the tile count of each compressed handle that the checks make (R122): its errors are accounted for
(R461 to R463). -/
def State.countWords (s : State) (acc : Nat) (gs : List MGroup) : State :=
  gs.foldl (fun s g =>
    let h := s.me.handle g.handle
    if h.form = 2 then
      s.bAccount s.cur (s.fire.elim 0 (·.trig)) s.ctx.pc acc g.handle 0 0 (s.me.bRead h.at_ 4 false)
    else s) s

/-- Check the groups, enter the queue, advance the SAGs. -/
def State.mmaIssue (s : State) (t : Nat) (base ctl : Word) (spans : List (Nat × Nat × Nat)) : Out :=
  let steps := fieldW ctl 15 0
  if steps = 0 then s.enqueueM (.mma t []) none
  else match s.mmaGroups t base steps (fieldW ctl 35 16) spans with
    | .error e => s.trap e.1 e.2
    | .ok gs =>
      if 2 ≤ s.me.mq.length then s.stalled
      else ((s.countWords t gs).modMe (fun c => c.advance gs)).enqueueM (.mma t gs) none

def execMma (c : BitVec 3) (a b : BitVec 5) (g : BitVec 2) (s : State) : Out :=
  s.need [.x a.toNat, .x b.toNat]
    (s.onTile c (s.mmaIssue c.toNat (s.X a) (s.X b) [(g.toNat, 0, 32)]))

/-- Row counts m0 to m(G−1) of X(s2), and each group's SAG, first row and rows. -/
def mmagCounts (ctl : Word) (n : Nat) : List Nat := (List.range n).map (fun g => fieldW ctl (41 + 6 * g) (36 + 6 * g))
/-- Log 53: DEDUCED, unsafe. -/
def mmagSpans : List Nat → Nat → Nat → List (Nat × Nat × Nat)
  | [], _, _ => []
  | m :: t, g, p => (g, p, m) :: mmagSpans t (g + 1) (p + m)

/-- Log 53: DEDUCED, unsafe. -/
def execMmag (c : BitVec 3) (a b : BitVec 5) (g : BitVec 2) (s : State) : Out :=
  s.need [.x a.toNat, .x b.toNat]
    (s.onTile c
      (let ms := mmagCounts (s.X b) (g.toNat + 1)
       if 32 < ms.foldl (· + ·) 0 then s.trap 0x083 (w64 (fieldW (s.X b) 59 36))
       else s.mmaIssue c.toNat (s.X a) (s.X b) (mmagSpans ms 0 0)))

/-! ## The other matrix commands at issue -/

def execMzero (c : BitVec 3) (m : BitVec 1) (s : State) : Out :=
  s.onTile c (s.enqueueM (.zero c.toNat (m == 1#1)) none)

def execMprom (c : BitVec 3) (s : State) : Out := s.onTile c (s.enqueueM (.prom c.toNat) none)

/-- MRD: row and segment from X(s2); MRD.W of a float tile is 0x081. -/
def mrd (op : Nat) (c : BitVec 3) (v b : BitVec 5) (sat : Bool) (m : Nat) (s : State) : Out :=
  s.need [.x b.toNat, .v v.toNat]
    (s.onTile c
      (if op = 0 ∧ s.me.modeOf c.toNat = true then s.trap 0x081 (w64 (c.toNat + 2 ^ 11))
       else s.enqueueM (.read c.toNat v.toNat (fieldW (s.X b) 4 0) (fieldW (s.X b) 6 5) op m sat) (some (.v v.toNat))))

def execMrdW (c : BitVec 3) (v b : BitVec 5) (s : State) : Out := mrd 0 c v b false 0 s
def execMrdF32 (c : BitVec 3) (v b : BitVec 5) (z : BitVec 1) (m : BitVec 3) (s : State) : Out :=
  mrd 1 c v b (z == 1#1) m.toNat s
def execMrdBf16 (c : BitVec 3) (v b : BitVec 5) (z : BitVec 1) (m : BitVec 3) (s : State) : Out :=
  mrd 2 c v b (z == 1#1) m.toNat s
def execMrdRaw (c : BitVec 3) (v b : BitVec 5) (s : State) : Out := mrd 3 c v b false 0 s
def execMrdStat (c : BitVec 3) (v : BitVec 5) (s : State) : Out := mrd 4 c v 0#5 false 0 s

/-- The own local store, through the local aperture or the own cluster slot. -/
def ownWin (ok : Nat → Bool) (c : Acc) : Bool := c.isOwn && ok c.win

/-- MST (R295). `sc`: with a scale vector; `z`: .sat. -/
def execMst (c : BitVec 3) (a b : BitVec 5) (sc z : BitVec 1) (m : BitVec 3) (s : State) : Out :=
  s.need [.x a.toNat, .x b.toNat]
    (s.onTile c
      (match mxAddr s.cur (s.X a) (ownWin (fun w => w != 0)) with
       | .error e => s.trap e.1 e.2
       | .ok d =>
         let stride := fieldW (s.X b) 23 0
         let so := fieldW (s.X b) 43 24
         let n := ceilDiv (32 * winBits d.win) 8
         if z = 1#1 ∧ winInt d.win = true then
           s.trap 0x001 (wordTval s.ctx.raw (s.ctx.pc + (if s.ctx.aw then 4 else 0)) 2)
         else if d.off % winAlign d.win ≠ 0 ∨ stride % winAlign d.win ≠ 0 then s.trap 0x102 (s.X a)
         else if 2 ^ 20 < d.off + 31 * stride + n then s.trap 0x104 (s.X a)
         else if sc = 1#1 ∧ so % 4 ≠ 0 then s.trap 0x102 (w64 (0xF000000000000000 + so))
         else if sc = 1#1 ∧ 2 ^ 20 < so + 128 then s.trap 0x104 (w64 (0xF000000000000000 + so))
         else s.enqueueM (.store c.toNat d.off d.win stride (if sc = 1#1 then some so else none) (z == 1#1) m.toNat) none))

/-- MSCL (R294). -/
def execMscl (c : BitVec 3) (a : BitVec 5) (r : BitVec 1) (s : State) : Out :=
  s.need [.x a.toNat]
    (s.onTile c
      (match mxAddr s.cur (s.X a) (fun k => !k.glob && (k.win == 0 || k.win == 14)) with
       | .error e => s.trap e.1 e.2
       | .ok k =>
         if k.off % 4 ≠ 0 then s.trap 0x102 (s.X a)
         else if 2 ^ 20 < k.off + 128 then s.trap 0x104 (s.X a)
         else s.enqueueM (.scale c.toNat k.col k.off (r == 1#1)) none))

/-- An operand of SEEDX or SEEDFIT: own local store, a window `ok` takes, aligned to 64, `n` bytes. (Log 146: DEDUCED,
unsafe) -/
def seedAddr (p : Nat) (a : Word) (ok : Nat → Bool) (n : Acc → Nat) : Except (Nat × Word) Acc :=
  match mxAddr p a (ownWin ok) with
  | .error e => .error e
  | .ok c =>
    if c.off % 64 ≠ 0 then .error (0x102, a)
    else if 2 ^ 20 < c.off + n c then .error (0x104, a)
    else .ok c

def execSeedx (d a b : BitVec 5) (s : State) : Out :=
  s.need [.x a.toNat, .x b.toNat, .x d.toNat]
    (match seedAddr s.cur (s.X a) (fun w => w == 0 || w == 11) (fun _ => 2048) with
     | .error e => s.trap e.1 e.2
     | .ok k => match seedAddr s.cur (s.X b) (fun w => w == 0) (fun _ => 64) with
       | .error e => s.trap e.1 e.2
       | .ok r => s.enqueueM (.seedx d.toNat r.off k.off) (some (.x d.toNat)))

def execSeedfit (d a b n : BitVec 5) (s : State) : Out :=
  s.need [.x a.toNat, .x b.toNat, .x d.toNat]
    (match seedAddr s.cur (s.X a) (fun w => w == 11 || w == 14) (fun c => if c.win = 11 then 2048 else 4096) with
     | .error e => s.trap e.1 e.2
     | .ok k => match seedAddr s.cur (s.X b) (fun w => w == 0) (fun _ => 64) with
       | .error e => s.trap e.1 e.2
       | .ok r => s.enqueueM (.seedfit d.toNat k.off k.win r.off n.toNat) (some (.x d.toNat)))

/-! ## Tiles -/

/-- A sparse table from key `k` on as a dense list, and back. -/
def dense {α : Type} (d : α) : Nat → Nat → List (Nat × α) → List α
  | 0, _, _ => []
  | n + 1, k, [] => d :: dense d n (k + 1) []
  | n + 1, k, (a, v) :: t => if a = k then v :: dense d n (k + 1) t else d :: dense d n (k + 1) ((a, v) :: t)

def sparse {α : Type} [DecidableEq α] (d : α) : Nat → List α → List (Nat × α)
  | _, [] => []
  | k, v :: t => if v = d then sparse d (k + 1) t else (k, v) :: sparse d (k + 1) t

def Tile.innerAll (t : Tile) : List Int := dense 0 1024 0 t.inner
def Tile.wideAll (t : Tile) : List Int := dense 0 1024 0 t.wide
def Tile.fpAll (t : Tile) : List Nat := dense 0 1024 0 t.fp

def zip2 {α β γ : Type} (f : α → β → γ) : List α → List β → List γ
  | a :: t, b :: u => f a b :: zip2 f t u
  | _, _ => []

/-- promote() (R180): the tile, and whether a wide value saturated. A float tile is unchanged. -/
def Tile.promote (t : Tile) : Tile × Bool :=
  if t.fl then (t, false)
  else
    let w := zip2 (· + ·) t.wideAll t.innerAll
    let lim : Int := 2 ^ 55 - 1
    ({ t with wide := sparse 0 0 (w.map (clampI (-lim) lim)), inner := [], n := 0 },
     w.any (fun x => decide (lim < x) || decide (x < -lim)))

/-- One integer step (R180): the tile, whether it promoted early, whether a wide value saturated. -/
def Tile.stepInt (t : Tile) (p : Nat) (d : List Int) : Tile × Bool × Bool :=
  let out (x : Int) : Bool := decide (x < -(2 ^ 23)) || decide (2 ^ 23 - 1 < x)
  let early := (zip2 (· + ·) t.innerAll d).any out
  let r := if early then t.promote else (t, false)
  let t' := { r.1 with inner := sparse 0 0 (zip2 (· + ·) r.1.innerAll d), n := r.1.n + 1 }
  if p ≤ t'.n then
    let q := t'.promote
    (q.1, early, r.2 || q.2)
  else (t', early, r.2)

/-- One floating step (R179) on the rows that have a contribution: the tile and the flags NV and OF. -/
def Tile.stepFp (t : Tile) (d : List (Option (Val × Nat))) : Tile × Nat :=
  let r : List (Nat × Nat) := zip2 (fun acc x => match x with
    | none => (acc, 0)
    | some v =>
      let z := Val.add 0 (FP56.decode acc) v.1
      let w := FP56.round z.1 0
      (w.code, w.fl ||| z.2 ||| v.2)) t.fpAll d
  ({ t with fp := sparse 0 0 (r.map (·.1)) }, (r.foldl (fun z x => z ||| x.2) 0) &&& (NV ||| OF))

def Column.tile (c : Column) (t : Nat) : Tile := sget Tile.zero c.tiles t
def Column.setTile (c : Column) (t : Nat) (v : Tile) : Column := { c with tiles := sput Tile.zero c.tiles t v }

/-- promote() of tile t with its ASAT setting. -/
def Column.promoteTile (c : Column) (t : Nat) : Column :=
  let r := (c.tile t).promote
  (c.setTile t r.1).raise (if r.2 then 2 ^ (8 + t) else 0) 0

/-- The value of element e of a promoted tile. -/
def Tile.val (t : Tile) (e : Nat) : Val :=
  if t.fl then FP56.decode (sget 0 t.fp e) else .ofInt (sget 0 t.wide e)

/-! ## Operand data of a step -/

/-- Element K of a packed run at byte `o` of a local store, in containers of cb bits: its location and length, its bits. -/
def elemSpan (o cb K : Nat) : Nat × Nat := (o + K * cb / 8, (K * cb % 8 + cb + 7) / 8)
def State.lsElem (s : State) (col o cb K : Nat) : Nat :=
  let p := elemSpan o cb K
  s.rdNat (.ls col p.1) p.2 / 2 ^ (K * cb % 8) % 2 ^ cb

/-- 0x305 of a matrix command's operand is reported and journalled, without an abort (R434). -/
def State.reportBad (s : State) (p : Nat) (m : MCmd) (v : Word) : State := s.reportBoth 0x305 p v m.tmsg m.tepc

/-- The granules `gs` of the local store of column `col` that the command has not read before: each is read once, by one event
(R280, R135), a corrected error is counted and an uncorrectable one reported and marked (R434). -/
def State.fetchGrans (s : State) (p : Nat) (m : MCmd) (col : Nat) (gs : List Nat) : MCmd × State :=
  gs.foldl (fun a n =>
    if a.1.reads.any (fun x => x.1 == n) then a
    else
      let l : Loc := .ls col (8 * n)
      let bad := a.2.errAt l 8 == 2
      let t := a.2.countRead [l]
      ({ a.1 with reads := a.1.reads ++ [(n, a.2.rdNat l 8 + 2 ^ 64 * b2n bad)] },
       if bad then t.reportBad p m (errCause l).2 else t)) (m, s)

/-- The granules of `n` bytes at `o`. -/
def gransOf (o n : Nat) : List Nat := (wordsOf o n).map (· / 8)

/-- `n` bytes at `o` from the granules read, as a number, and whether one of them is uncorrectable. -/
def MCmd.val (m : MCmd) (o n : Nat) : Nat × Bool :=
  let w (g : Nat) : Nat := ((m.reads.find? (fun x => x.1 == g)).map (·.2)).getD 0
  (leNat ((List.range n).map (fun b => BitVec.ofNat 8 (w ((o + b) / 8) / 2 ^ (8 * ((o + b) % 8))))),
   (gransOf o n).any (fun g => bitN (w g) 64))

/-- The granules of A elements K of rows `is` of a group. -/
def MGroup.grans (g : MGroup) (is ks : List Nat) : List Nat :=
  (is.flatMap (fun i => ks.flatMap (fun K =>
    let p := elemSpan (g.aoff + i * g.stride) (winBits g.fa) K
    gransOf p.1 p.2))).eraseDups

/-- An A element from the granules read, and whether it is uncorrectable. -/
def MCmd.aElem (m : MCmd) (g : MGroup) (i K : Nat) : Nat × Bool :=
  let p := elemSpan (g.aoff + i * g.stride) (winBits g.fa) K
  let v := m.val p.1 p.2
  (v.1 / 2 ^ (K * winBits g.fa % 8) % 2 ^ winBits g.fa, v.2)

/-- Element e of a packed run of containers of cb bits at byte `o`, from the granules read. -/
def MCmd.elem (m : MCmd) (o cb e : Nat) : Nat :=
  let p := elemSpan o cb e
  (m.val p.1 p.2).1 / 2 ^ (e * cb % 8) % 2 ^ cb

/-- The column whose local store a command reads. -/
def MOp.readCol (p : Nat) : MOp → Nat
  | .mma _ (g :: _) => g.acol
  | .scale _ c _ _ => c
  | _ => p

/-- A chunk of a compressed tile: its bytes, whether malformed, whether a word of it is uncorrectable, where it lies. -/
structure TileChunk where
  bytes : List Byte
  bad : Bool
  ecc : Bool
  at_ : Nat
  len : Nat
  deriving DecidableEq, Repr

/-- Chunks of a compressed tile from key `a` on. Once a header is unusable every later chunk is malformed (R313). -/
def Column.readChunks (c : Column) : Nat → Option Nat → List TileChunk
  | 0, _ => []
  | n + 1, none => { bytes := List.replicate 256 0, bad := true, ecc := false, at_ := 0, len := 0 } :: c.readChunks n none
  | n + 1, some a =>
    let r := chunkUnpack (c.stackRead a 292)
    let len := r.len.getD 36
    { bytes := r.bytes, bad := r.bad, ecc := c.stackBad a len, at_ := a, len := len } :: c.readChunks n (r.len.map (a + ·))

/-- A row of a B tile: its containers, whether it poisons what it feeds, flags of a seeded expansion, and the reads made for
it (a record, an offset entry or a chunk is read once for its rows). -/
structure BRow where
  bits : List Nat
  bad : Bool
  flags : Nat
  reads : List BRead
  deriving DecidableEq, Repr

/-- Row r of tile `t` of a handle, resolved at this read (R125, R287, R300, R123); `again`: reading starts here, so that what
earlier rows had read is read again (R442). An offset entry that points outside the handle's LEN is followed as it stands:
bytes past the column's stack read zero. (Log 56: DEDUCED, unsafe; 135: DESIGN CHOICE, unsafe) -/
def Column.bRow (c : Column) (h : Handle) (t r : Nat) (again : Bool) : BRow :=
  if h.form = 1 then
    let a := h.at_ + 64 * t
    let rec_ := leNat (c.stackRead a 64)
    let bad := recMalformed rec_
    let ws := if bad then [] else expandRec rec_ (32 * r) 32
    let all := if bad || r != 0 then [] else expandRec rec_ 0 1024
    { bits := if bad then List.replicate 32 0 else ws.map (·.code),
      bad := c.stackBad a 64 || bad, flags := all.foldl (fun z w => z ||| w.fl) 0,
      reads := if r = 0 ∨ again = true then [c.bRead a 64 bad] else [] }
  else
    let rb := 4 * winBits h.fmt
    let cb := winBits h.fmt
    if h.form = 2 then
      let ea := h.at_ + 4 + 4 * t
      let tab := leNat (c.stackRead ea 4)
      let cs := c.readChunks ((r * rb + rb + 255) / 256) (some (h.at_ + tab))
      let mine := cs.drop (r * rb / 256)
      let new := if again then mine else cs.drop ((r * rb + 255) / 256)
      let v := leNat (((cs.flatMap (·.bytes)).drop (r * rb)).take rb)
      { bits := (List.range 32).map (fun j => v / 2 ^ (cb * j) % 2 ^ cb),
        bad := c.stackBad ea 4 || mine.any (fun k => k.ecc || k.bad), flags := 0,
        reads := (if r = 0 ∨ again = true then [c.bRead ea 4 false] else []) ++ new.map (fun k => c.bRead k.at_ k.len k.bad) }
    else
      let a := h.at_ + t * tileSize h.fmt + r * rb
      let v := leNat (c.stackRead a rb)
      { bits := (List.range 32).map (fun j => v / 2 ^ (cb * j) % 2 ^ cb),
        bad := c.stackBad a rb, flags := 0, reads := [c.bRead a rb false] }

/-- The mask of `n` rows from `r` on. -/
def rowMask (r n : Nat) : Nat := (2 ^ n - 1) * 2 ^ r

/-- An early promotion is counted in SYS.EARLYP, which saturates (R181). -/
def Column.early (c : Column) (b : Bool) : Column :=
  if b then { c with earlyp := min (c.earlyp + 1) 0xFFFFFFFF, cyEarly := c.cyEarly + 1 } else c

/-- The operands of one step of group g of command m (R177): the rows of B for its k consecutive K indices, each with its tile,
and per row of A its elements at these indices. -/
structure StepData where
  rows : List (Nat × BRow)
  as : List (List (Nat × Bool))
  deriving DecidableEq, Repr

/-- The K indices of the next step, and its rows of A. -/
def MCmd.ks (m : MCmd) (g : MGroup) : List Nat := (List.range g.k).map (fun x => m.step * g.k + x)
def MGroup.ais (g : MGroup) : List Nat := (List.range g.rows).map (fun i => g.row0 + i)

def Column.stepData (c : Column) (m : MCmd) (g : MGroup) : StepData :=
  let h := c.handle g.handle
  { rows := (m.ks g).map (fun K =>
      let t := (g.tiles[K / g.rt]?).getD 0
      (t, c.bRow h t (K % g.rt) (m.again && K == m.step * g.k))),
    as := g.ais.map (fun i => (m.ks g).map (fun K => m.aElem g i K)) }

/-- A list for the rows of a group among the elements of a tile. -/
def MGroup.pad {α : Type} (g : MGroup) (d : α) (l : List α) : List α :=
  List.replicate (32 * g.row0) d ++ l ++ List.replicate (1024 - 32 * (g.row0 + g.rows)) d

/-- The contributions of a step to an integer tile, and to a float tile (R177). -/
def StepData.ints (x : StepData) (g : MGroup) : List Int :=
  let bv := columnsOf 32 0 (x.rows.map (fun b => b.2.bits.map (winInt_value g.fb)))
  g.pad 0 ((x.as.map (fun l => l.map (fun e => winInt_value g.fa e.1))).flatMap (fun a => bv.map (fun b => dot a b)))
def StepData.vals (x : StepData) (g : MGroup) : List (Option (Val × Nat)) :=
  let bv := columnsOf 32 (.fin false 0 0) (x.rows.map (fun b => b.2.bits.map (winVal g.fb)))
  g.pad none ((x.as.map (fun l => l.map (fun e => winVal g.fa e.1))).flatMap (fun a =>
    bv.map (fun b => some (sumVals (zip2 Val.mul a b)))))

/-- The rows of the tile that a step poisons: those of the group for a bad row of B, a row of A with an uncorrectable element
(R296, R434). -/
def StepData.poison (x : StepData) (g : MGroup) : Nat :=
  (if x.rows.any (·.2.bad) then rowMask g.row0 g.rows else 0) |||
    (zip2 (fun i (l : List (Nat × Bool)) => if l.any (·.2) then 2 ^ i else 0) g.ais x.as).foldl (· + ·) 0

/-- A step would take an element of an integer tile out of its inner range: the tile is promoted first (R181). -/
def Column.promotesEarly (c : Column) (m : MCmd) (acc : Nat) (g : MGroup) : Bool :=
  !(c.tile acc).fl && ((c.tile acc).stepInt c.promo ((c.stepData m g).ints g)).2.1

/-- The early promotion before a step, in a cycle of its own (R181, Table 14-11). -/
def Column.promoteEarly (c : Column) (acc : Nat) : Column := (c.promoteTile acc).early true

/-- One step of group g of command m into tile `acc`: the arithmetic of R179 or R180, poison, and what the reads of B
report. (Log 53: DEDUCED, unsafe) -/
def State.mmaStep (s : State) (p : Nat) (m : MCmd) (acc : Nat) (g : MGroup) : State :=
  let c := s.col p
  let x := c.stepData m g
  let mask := rowMask g.row0 g.rows
  let s := (x.rows.flatMap (fun b => b.2.reads.map (fun r => (b.1, r)))).foldl
    (fun s b => s.bAccount p m.tmsg m.tepc acc g.handle b.1 mask b.2) s
  let t := c.tile acc
  let r : Tile × Nat :=
    if t.fl then t.stepFp (x.vals g)
    else
      let q := t.stepInt c.promo (x.ints g)
      (q.1, if q.2.2 then 2 ^ (8 + acc) else 0)
  s.modCol p (fun c =>
    ((c.raise (x.rows.foldl (fun z b => z ||| b.2.flags) 0) 0).setTile acc { r.1 with poison := r.1.poison ||| x.poison g }).raise
      r.2 0)

/-! ## The steps of the matrix unit -/

/-- The command of the running firing may go on: its firing has not stopped. -/
def Column.mayRun (c : Column) (m : MCmd) : Bool :=
  match c.firing m.band with
  | some f => match f.phase with
    | .abort _ _ _ _ _ => false
    | _ => true
  | none => false

/-- A trap of the firing that issued a command, taken at a later group boundary (R278, R307). -/
def Column.deferCmd (c : Column) (b id cause path : Nat) (tval : Word) (tepc : Nat) (aw : Bool) : Column :=
  c.modFiring b (fun f => match f.phase with
    | .abort _ _ _ _ _ => f
    | _ => { f with deferred := f.deferred ++ [{ ord := id, cause := cause, path := path, tval := tval, tepc := tepc, aw := aw }] })

/-- Poisoned data: the command ends with cause 0x302 (R297). (Log 54: DEDUCED, unsafe) -/
def Column.poisonTrap (c : Column) (m : MCmd) (acc : Nat) (mst : Bool) : Column :=
  let c := c.deferCmd m.band m.id 0x302 2 (w64 ((c.tile acc).poison + 2 ^ 32 * acc + 2 ^ 35 * b2n mst)) m.tepc m.aw
  { c with mrun := none }

/-- FP32 value i of a scale vector from the granules read, and whether it is uncorrectable. -/
def MCmd.scaleVal (m : MCmd) (o i : Nat) : Val × Bool :=
  let v := m.val (o + 4 * i) 4
  (FP32.decode v.1, v.2)

/-- MSCL (R294): a promoted tile in float mode, every element scaled and rounded; NV and OF only. (Log 55: DEDUCED,
unsafe) -/
def State.scaleTile (s : State) (p : Nat) (m : MCmd) (t col o : Nat) (byCol : Bool) : State :=
  let r := s.fetchGrans p m col (gransOf o 128)
  let sv := (List.range 32).map (r.1.scaleVal o)
  let bad := (zip2 (fun i (x : Val × Bool) => if x.2 then 2 ^ i else 0) (List.range 32) sv).foldl (· + ·) 0
  r.2.modCol p (fun c =>
    let c := c.promoteTile t
    let k := c.tile t
    let vs : List Val := if k.fl then k.fpAll.map FP56.decode else k.wideAll.map Val.ofInt
    let r := zip2 (fun e v =>
      let x := (sv[if byCol then e % 32 else e / 32]?).getD (.nan, false)
      let z := Val.mul v x.1
      let w := FP56.round z.1 0
      { w with fl := (w.fl ||| z.2) &&& (NV ||| OF) }) (List.range 1024) vs
    let poison := k.poison ||| (if bad = 0 then 0 else if byCol then 2 ^ 32 - 1 else bad)
    (c.setTile t { fl := true, n := 0, poison := poison, inner := [], wide := [],
                   fp := sparse 0 0 (r.map (·.code)) }).raise (r.foldl (fun z x => z ||| x.fl) 0) 0)

/-! ### Timing (R288, R303, R394) -/

/-- Cycles per step of an operand's window (Table 10-1). -/
def stepCycles (w : Nat) : Nat := if w = 14 then 4 else if 11 ≤ w then 2 else 1

/-- Cycles of a step of a group (R288): a TF19 B operand takes 4. -/
def MGroup.cycles (g : MGroup) : Nat := if g.fb = 13 then 4 else max (stepCycles g.fa) (stepCycles g.fb)

/-- Cycles of one row of an MST, of one batch of a SEEDFIT. -/
def rowCycles (win : Nat) : Nat := ceilDiv (ceilDiv (32 * winBits win) 8) 64
/-- Log 58: DEDUCED, unsafe. -/
def batchCycles : Nat := 100

/-- Cycles from the start of a command to its first step, or to its completion where it has none. -/
def Column.firstAfter (c : Column) : MOp → Nat
  | .mma _ [] => 1
  | .mma _ (g :: _) => if (c.handle g.handle).form = 1 then 17 else 13
  | .zero _ _ | .prom _ => 2
  | .read _ _ _ _ _ _ _ | .scale _ _ _ _ => 4
  | .store _ _ win _ _ _ _ => 4 + rowCycles win
  | .seedx _ _ _ => 80
  | .seedfit _ _ _ _ _ => 40 + batchCycles

/-- A started command, with the cycle of its first step: it starts at issue, or in the cycle after the one before it
completed, or now when it resumes. The steps of an MMA wait for the first data read ahead since its issue or its resumption,
and not for the end of the command before it (R394, R339, Table 2-2). -/
def Column.started (c : Column) (m : MCmd) : MCmd :=
  let t := if m.begun then c.cycle else max m.from_ c.mfree
  let due := match m.op with
    | .mma _ (_ :: _) => max (t + 1) (m.from_ + c.firstAfter m.op)
    | op => t + c.firstAfter op
  { m with begun := true, again := true, due := due }

/-- The cycle a step counts from: when it was due, or now after a pause of the steps. -/
def Column.stepAt (c : Column) (m : MCmd) : Nat := max m.due (c.cycle - 3)

/-- An earlier load or atomic of the firing still has to reach bytes that the command reads or writes: within one firing they
take effect in program order (R279). -/
def State.afterReqs (s : State) (p : Nat) (m : MCmd) : Bool :=
  let rs := m.op.reads p ++ m.op.writesTo p
  s.reqs.any (fun r => decide (r.col = p) && decide (r.band = m.band) && decide (r.id < m.id) && r.dst.isSome &&
    r.st == .sent && r.op.locs.any (fun l => match l with
      | .ls c o => meets rs c o 1
      | _ => false))

/-- MATRIX_COMMAND_START: the oldest queued command starts. MZERO and MPROM act; MRD and MST promote their tile and
stop at poison. (Log 57: DEDUCED, unsafe) -/
def evMatrixCommandStart (p : Nat) (s : State) : Option State :=
  let c := s.col p
  match c.mrun, c.mq with
  | none, m :: q =>
    if c.mayRun m = false ∨ s.afterReqs p m = true then none
    else
      let s := s.setCol p { c with mq := q, mrun := some (c.started m) }
      if m.begun then some s
      else match m.op with
        | .zero t fl => some (s.modCol p (fun c => c.setTile t { Tile.zero with fl := fl }))
        | .prom t => some (s.modCol p (fun c => c.promoteTile t))
        | .read t _ row _ op _ _ =>
          if op = 4 then some s
          else
            let s := s.modCol p (fun c => c.promoteTile t)
            if bitN ((s.col p).tile t).poison row then
              some (s.modCol p (fun c => ((c.poisonTrap m t false).cancelReq m.band m.id)))
            else some s
        | .store t _ _ _ _ _ _ =>
          let s := s.modCol p (fun c => c.promoteTile t)
          if ((s.col p).tile t).poison ≠ 0 then some (s.modCol p (fun c => c.poisonTrap m t true)) else some s
        | _ => some s
  | _, _ => none

/-- Steps of a command: those of its groups, 32 rows of an MST, batches of a SEEDFIT, the expansion of a SEEDX, and the
granules it has to write; none of the others. -/
def MCmd.stepsLeft (m : MCmd) : Bool :=
  !m.out.isEmpty || match m.op with
  | .mma _ gs => decide (m.grp < gs.length)
  | .store _ _ _ _ _ _ _ => decide (m.step < 32)
  | .seedx _ _ _ => m.res.isNone
  | .seedfit _ _ _ _ n => decide (m.step < ceilDiv (2 ^ n) 256)
  | _ => false

/-- Bytes from offset `o` on, cut into aligned 8-byte granules. `fuel` bounds their number. -/
def granules (o : Nat) (bs : List Byte) : Nat → List (Nat × List Byte)
  | 0 => []
  | fuel + 1 =>
    let n := 8 - o % 8
    match bs with
    | [] => []
    | b :: t => (o, (b :: t).take n) :: granules (o + n) ((b :: t).drop n) fuel

/-- One granule of what a command has to write is written: any that comes first among those of its own granule (R280). -/
def State.writeOut (s : State) (p : Nat) (m : MCmd) : State :=
  let firsts := (List.range m.out.length).filter (fun i => (m.out[i]?).elim false (fun w =>
    !(m.out.take i).any (fun v => v.1 / 8 == w.1 / 8)))
  let k := s.choose firsts.length
  let i := (firsts[k.1]?).getD 0
  match m.out[i]? with
  | some w => k.2.modCol p (fun c => { c.wrBytes w.1 w.2 with mrun := some { m with out := dropAt m.out i } })
  | none => s

/-- Row `i` of an MST: each element converted (R295), the row's bytes to write. -/
def State.mstRow (s : State) (p : Nat) (m : MCmd) (t off win stride : Nat) (sc : Option Nat) (sat : Bool) (mode i : Nat) :
    List (Nat × List Byte) × MCmd × State :=
  let k := (s.col p).tile t
  let f := sc.elim (m, s) (fun o => s.fetchGrans p m p (gransOf (o + 4 * i) 4))
  let sv : Option (Val × Bool) := sc.map (fun o => f.1.scaleVal o i)
  let es : List Rnd := (List.range 32).map (fun j =>
    let v := k.val (32 * i + j)
    let x : Val × Nat := match sv with
      | some f => Val.mul v f.1
      | none => (v, 0)
    if winInt win then
      match k.fl, sv with
      | false, none => { code := um (winBits win) (clampI (winLo win) (winHi win) (sget 0 k.wide (32 * i + j))), fl := 0, ftz := 0 }
      | _, _ =>
        let r := roundInt x.1 (winLo win) (winHi win) mode
        { code := um (winBits win) r.val, fl := r.fl ||| x.2, ftz := 0 }
    else
      let r := (winFmt win).cvt x.1 mode sat
      { r with fl := r.fl ||| x.2 })
  let bs := leBytes (ceilDiv (32 * winBits win) 8) (es.foldr (fun r z => r.code + 2 ^ winBits win * z) 0)
  let bad := match sv with
    | some f => f.2
    | none => false
  (granules (off + i * stride) bs (bs.length + 1), f.1, f.2.modCol p (fun c =>
    let c := c.raise (es.foldl (fun z r => z ||| r.fl) 0) (es.foldl (fun z r => z + r.ftz) 0)
    if bad then c.setTile t { c.tile t with poison := (c.tile t).poison ||| 2 ^ i } else c))

/-- SEEDX (R301): the tile's bytes, X(d), the flags. (Log 55: DEDUCED, unsafe) -/
def seedxResult (rec_ : Nat) : List Byte × Nat × Nat :=
  if recMalformed rec_ then (List.replicate 2048 0, 1, 0)
  else
    let ws := expandRec rec_ 0 1024
    let fl := ws.foldl (fun z w => z ||| w.fl) 0
    (ws.flatMap (fun w => leBytes 2 w.code),
     2 * b2n (bitN fl 2) + 4 * b2n (ws.any (fun w => w.code == 0x7FC0)), fl)

/-- The expansion of a SEEDX: the tile's bytes to write, X(d). (Log 55: DEDUCED, unsafe) -/
def State.seedxStep (s : State) (p : Nat) (m : MCmd) (rec_ dst : Nat) : State :=
  let f := s.fetchGrans p m p (gransOf rec_ 64)
  let r := seedxResult (f.1.val rec_ 64).1
  f.2.modCol p (fun c =>
    let c := c.raise r.2.2 0
    { c with mrun := some { f.1 with out := granules dst r.1 (r.1.length + 1), res := some r.2.1 } })

/-- The last batch of a SEEDFIT: the block to write, X(d). (Log 58: DEDUCED, unsafe) -/
def State.seedfitStep (s : State) (p : Nat) (m : MCmd) (tgt win blk n : Nat) : State :=
  let sz := if win = 11 then 2048 else 4096
  let f := s.fetchGrans p m p (gransOf tgt sz ++ gransOf blk 64)
  let r := seedFit ((List.range 1024).map (fun e => winVal win (f.1.elem tgt (winBits win) e))) (f.1.val blk 64).1 n
  f.2.modCol p (fun c =>
    let c := c.raise r.2.2 0
    let out := r.2.1.elim [] (fun b => granules blk (leBytes 64 b) 9)
    { c with mrun := some { f.1 with step := m.step + 1, res := some r.1, out := out } })

/-- MATRIX_STEP: one step of the command being carried out, or the early promotion before it; a row of an MST, a batch of a
SEEDFIT; or one granule of what they have to write. (Log 57: DEDUCED, unsafe) -/
def evMatrixStep (p : Nat) (s : State) : Option State :=
  let c := s.col p
  match c.mrun with
  | none => none
  | some m =>
    if m.stepsLeft = false ∨ c.mayRun m = false then none
    else if m.out.isEmpty = false then some (s.writeOut p m)
    else if c.cycle < m.due then none
    else match m.op with
      | .mma t gs =>
        match gs[m.grp]? with
        | none => none
        | some g =>
          if s.proctor.rtPause.contains (dieOf p) then none else
          let f := s.fetchGrans p m g.acol (g.grans g.ais (m.ks g))
          let m := f.1
          if !m.promoted && c.promotesEarly m t g then
            some (f.2.modCol p (fun k =>
              let k := k.promoteEarly t
              { k with mrun := some { m with promoted := true, due := c.stepAt m + 1 } }))
          else
            let m' := if m.step + 1 < g.steps then { m with step := m.step + 1 } else { m with grp := m.grp + 1, step := 0 }
            let n := if m'.stepsLeft then g.cycles else 2
            let m' := { m' with due := c.stepAt m + n, again := false, promoted := false }
            some ((f.2.mmaStep p m t g).modCol p (fun k => { k with mrun := some m' }))
      | .store t off win stride sc sat mode =>
        let r := s.mstRow p m t off win stride sc sat mode m.step
        let due := m.due + (if m.step < 31 then rowCycles win else 0)
        some (r.2.2.modCol p (fun c => { c with mrun := some { r.2.1 with step := m.step + 1, out := r.1, due := due } }))
      | .seedx _ rec_ dst => some (s.seedxStep p m rec_ dst)
      | .seedfit _ tgt win blk n =>
        if ceilDiv (2 ^ n) 256 ≤ m.step + 1 then some (s.seedfitStep p m tgt win blk n)
        else some (s.setCol p { c with mrun := some { m with step := m.step + 1, due := m.due + batchCycles } })
      | _ => none

/-- The lanes of MRD (R293). -/
def Tile.lanes (t : Tile) (row seg op mode : Nat) (sat : Bool) : VWord × Nat × Nat :=
  let q := 16 * (seg % 2)
  let v (j : Nat) : Val := t.val (32 * row + j)
  let fl (l : List Rnd) : Nat := l.foldl (fun z r => z ||| r.fl) 0
  let fz (l : List Rnd) : Nat := l.foldl (fun z r => z + r.ftz) 0
  match op with
  | 0 => (pack 32 ((List.range 16).map (fun i => um 32 (satS 32 (sget 0 t.wide (32 * row + q + i))))), 0, 0)
  | 1 =>
    let l := (List.range 16).map (fun i => FP32.cvt (v (q + i)) mode sat)
    (pack 32 (l.map (·.code)), fl l, fz l)
  | 2 =>
    let l := (List.range 32).map (fun i => BF16.cvt (v i) mode sat)
    (pack 16 (l.map (·.code)), fl l, fz l)
  | 3 => (pack 64 ((List.range 8).map (fun i =>
      let e := 32 * row + 8 * seg + i
      if t.fl then sget 0 t.fp e else um 64 (sget 0 t.wide e))), 0, 0)
  | _ => (BitVec.ofNat 512 (t.poison + 2 ^ 32 * b2n t.fl + 2 ^ 33 * t.n), 0, 0)

/-- MATRIX_COMMAND_COMPLETE: the command ends; MSCL has its effect, MRD, SEEDX and SEEDFIT write their results. (Log
57: DEDUCED, unsafe) -/
def evMatrixCommandComplete (p : Nat) (s : State) : Option State :=
  let c := s.col p
  match c.mrun with
  | none => none
  | some m =>
    if m.stepsLeft = true ∨ c.mayRun m = false ∨ c.cycle < m.due then none
    else
      let s := s.setCol p { c with mrun := none, mfree := m.due + 1, mdone := some (c.cycle, m) }
      match m.op with
      | .read t _ row seg op mode sat =>
        let r := (c.tile t).lanes row seg op mode sat
        some (s.modCol p (fun c => c.completeReq m.band m.id r.1 r.2.1 r.2.2))
      | .scale t col o byCol => some (s.scaleTile p m t col o byCol)
      | .seedx _ _ _ | .seedfit _ _ _ _ _ =>
        some (s.modCol p (fun c => c.completeReq m.band m.id (BitVec.ofNat 512 (m.res.getD 0)) 0 0))
      | _ => some s

/-- The matrix unit reads a granule of its running command's operands before the step that uses it (R280). -/
def State.matrixTurn (s : State) (p g : Nat) : Option State :=
  match (s.col p).mrun with
  | none => none
  | some m =>
    let col := m.op.readCol p
    if meets (m.op.reads p) col (8 * g) 8 && (s.col p).mayRun m && !m.reads.any (fun x => x.1 == g) then
      let f := s.fetchGrans p m col [g]
      some (f.2.modCol p (fun c => { c with mrun := some f.1 }))
    else none

def execMatrixCommandStart (c : Nat) (s : State) : Out := event (evMatrixCommandStart c) s
def execMatrixStep (c : Nat) (s : State) : Out := event (evMatrixStep c) s
def execMatrixCommandComplete (c : Nat) (s : State) : Out := event (evMatrixCommandComplete c) s

/-! ## Suspension (R48, R49, R281) -/

/-- A command that a pre-emption or a park suspends at a boundary; the others run to completion. -/
def MOp.suspendable : MOp → Bool
  | .mma _ _ | .store _ _ _ _ _ _ _ | .seedfit _ _ _ _ _ => true
  | _ => false

/-- The commands of band `b` go to its save area: the suspended running one first, then the queued ones. -/
def Column.saveMatrix (c : Column) (b : Nat) : Column :=
  let run := c.mrun.filter (fun m => decide (m.band = b) && m.op.suspendable)
  let q := c.mq.filter (fun m => decide (m.band = b))
  let c := run.toList.foldl Column.flushOut c
  let run := run.map (fun (m : MCmd) => { m with out := [] })
  let c := { c with mrun := if run.isSome then none else c.mrun, mq := c.mq.filter (fun m => decide (m.band ≠ b)) }
  c.modBank b (fun k => { k with saved := k.saved ++ run.toList ++ q })

/-- At resumption they return to the queue ahead of any new command; stream reads are reissued two cycles later, one cycle
later than at an issue (Table 2-2). -/
def Column.restoreMatrix (c : Column) (b : Nat) : Column :=
  let l := (c.bank b).saved.map (fun (m : MCmd) => { m with from_ := c.cycle + 1 })
  let c := { c with mq := l ++ c.mq }
  c.modBank b (fun k => { k with saved := [] })

end Sys2Proof.Machine
end

