-- ==== Sys2Proof/Machine/Lse.lean ====
section
/-!
DEFINITION. The layer-swap engine of each die (R83, R124, R125, R319 to R322): LSWAP and the host's posts, acceptance,
fills, refills, relocations and their stamps.
-/
namespace Sys2Proof.Machine

/-! ## Descriptors (Table 11-5) -/

def lOp (v : Nat) : Nat := fieldN v 3 0
def lCol (v : Nat) : Nat := fieldN v 13 4
def lHandle (v : Nat) : Nat := fieldN v 21 14
def lChan (v : Nat) : Nat := fieldN v 28 22
def lGate (v : Nat) : Bool := bitN v 29
def lSrc (v : Nat) : Nat := fieldN v 110 64
def lStamp (v : Nat) : Word := w64 (fieldN v 191 128)

/-- The issue checks of R320 for issuer `p`. -/
def State.lseOk (s : State) (p v : Nat) : Bool :=
  let used := match lOp v with
    | 0 => fieldN v 63 32 == 0
    | 1 => fieldN v 255 224 == 0
    | 2 => !lGate v && fieldN v 110 32 == 0 && fieldN v 232 227 == 0 && fieldN v 255 244 == 0
    | _ => false
  let stamp := match decodeAddr p (lStamp v) with
    | none => false
    | some c => (c.glob || ownRaw c) && c.off % 8 == 0
  used && fieldN v 31 30 == 0 && fieldN v 127 111 == 0 && lCol v / 256 == s.proctor.chainPos &&
    dieOf (lCol v % 256) == dieOf p && stamp

/-- The bytes of a descriptor's stamp that lie in the issuer's own local store. -/
def stampLocs (p v : Nat) : List Loc :=
  match decodeAddr p (lStamp v) with
  | some c => if c.glob then [] else lsLocs c.col c.off 8
  | none => []

/-- LSWAP. (Log 64: DEDUCED, unsafe) -/
def execLswap (d a : BitVec 5) (s : State) : Out :=
  s.need [.x a.toNat, .x d.toNat]
    (s.onDesc (s.X a) (fun v t =>
      if !t.lseOk t.cur v then t.trap 0x202 (t.X a)
      else if t.mxWait true (stampLocs t.cur v) then s.stalled
      else if 2 ≤ s.me.copyWaiting s.me.band then s.stalled
      else t.enqueueC (.lswap v) d))

/-! ## Acceptance (R320, R83) -/

def State.lseList (s : State) (d : Nat) : List LCmd := sget [] s.lse d
def State.setLse (s : State) (d : Nat) (l : List LCmd) : State := { s with lse := sput [] s.lse d l }

/-- Accepted commands for one pair of column and handle, in acceptance order. -/
def State.lsePair (s : State) (c h : Nat) : List LCmd :=
  (s.lseList (dieOf c)).filter (fun k => decide (k.col = c) && decide (k.h = h))

/-- The last accepted fill of the pair, whose fields the handle will have. -/
def State.lseLast (s : State) (c h : Nat) : Option LCmd :=
  ((s.lsePair c h).filter (fun k => decide (lOp k.desc = 0))).getLast?

/-- The handle is valid once the accepted fills and refills are complete; its form; whether it has a recorded source. -/
def State.lseValid (s : State) (c h : Nat) : Bool :=
  ((s.col c).handle h).valid || (s.lsePair c h).any (fun k => decide (lOp k.desc ≤ 1) && !k.failed)
def State.lseForm (s : State) (c h : Nat) : Nat :=
  match s.lseLast c h with
  | some k => fieldN k.desc 228 227
  | none => ((s.col c).handle h).form
def State.lseLen (s : State) (c h : Nat) : Nat :=
  match s.lseLast c h with
  | some k => fieldN k.desc 255 244
  | none => ((s.col c).handle h).len
def State.lseSrcKnown (s : State) (c h : Nat) : Bool := ((s.col c).handle h).src.isSome || (s.lseLast c h).isSome

/-- What an accepted command will make of its handle. -/
def LCmd.leaves (k : LCmd) (h : Handle) : Handle :=
  match lOp k.desc with
  | 0 => { h with layer := fieldN k.desc 226 224, base := fieldN k.desc 243 233, len := fieldN k.desc 255 244, valid := true }
  | 1 => { h with valid := true }
  | _ => { h with layer := fieldN k.desc 226 224, base := fieldN k.desc 243 233 }

/-- The handle as the accepted commands for it will leave it (R320). -/
def State.lseFinal (s : State) (c h : Nat) : Handle :=
  ((s.lsePair c h).filter (fun k => !k.failed)).foldl (fun x k => k.leaves x) ((s.col c).handle h)

/-- The areas of column c that are taken (layer, base, length), each with its handle: those of valid handles, as they are and as
the accepted commands will leave them (R320). (Log 69: DEDUCED, unsafe) -/
def State.takenAreas (s : State) (c : Nat) : List (Nat × Handle) :=
  ((s.col c).htab ++ ((s.lseList (dieOf c)).filter (fun k => decide (k.col = c))).map (fun k => (k.h, s.lseFinal c k.h))).filter
    (fun e => e.2.valid)

/-- An area of a slice is empty or leaves the slice, or meets one that is taken by a handle that `other` takes, or one that a
relocation has left and that is still allocated (R125). (Log 69: DEDUCED, unsafe) -/
def State.areaBad (s : State) (c layer base len : Nat) (other : Nat → Bool) : Bool :=
  decide (len = 0) || decide (2048 < base + len) ||
  (s.col c).areas.any (fun x => decide (x.1 = layer) && decide (x.2.1 < base + len) && decide (base < x.2.1 + x.2.2.1) &&
    decide ((s.col c).cycle < x.2.2.2)) ||
  (s.takenAreas c).any (fun e => other e.1 && decide (e.2.layer = layer) && decide (e.2.base < base + len) &&
    decide (base < e.2.base + e.2.len))

/-- A refill names fewer than all tiles of its handle: where a fill of it is still to come the number of tiles is not known, and
every count but 0 is partial. -/
def State.partialRefill (s : State) (c h v : Nat) : Bool :=
  fieldN v 48 32 != 0 || (fieldN v 63 49 != 0 && match s.lseLast c h with
    | some _ => true
    | none => decide (fieldN v 63 49 < (s.col c).ntiles ((s.col c).handle h)))

/-- The refusal reason of R320, or none. (Log 69: DEDUCED, unsafe) -/
def State.lseReason (s : State) (v : Nat) : Option Nat :=
  let c := lCol v % 256
  let h := lHandle v
  let form := fieldN v 228 227
  let fmt := fieldN v 232 229
  if lOp v ≠ 0 ∧ s.lseValid c h = false then some 1
  else if lOp v = 0 ∧ s.areaBad c (fieldN v 226 224) (fieldN v 243 233) (fieldN v 255 244) (fun i => i != h) = true then some 2
  else if lOp v = 2 ∧ s.areaBad c (fieldN v 226 224) (fieldN v 243 233) (s.lseLen c h) (fun _ => true) = true then some 2
  else if lOp v = 1 ∧ s.lseForm c h = 2 ∧ s.partialRefill c h v = true then some 3
  else if lOp v = 0 ∧ (form = 3 ∨ fmt = 0 ∨ fmt = 15 ∨ (form = 1 ∧ fmt ≠ 11)) then some 4
  else if lOp v = 1 ∧ lSrc v = 0 ∧ s.lseSrcKnown c h = false then some 5
  else none

/-- An end-of-pass marker stands at the head of the channel. -/
def Chan.passHead (k : Chan) : Bool :=
  match k.headMarker with
  | some i => i.msg.kind == 1
  | none => false

/-- Enter an accepted command; a gated one waits for the first end-of-pass marker that reaches the head from now on. `by_`:
the firing whose swap posted it. -/
def State.lseEnter (s : State) (v : Nat) (stamp : Option Word) (owner : Nat) (by_ : Option (Nat × Nat)) : State :=
  let c := lCol v % 256
  let k : LCmd := { id := s.nextId, desc := v, col := c, h := lHandle v, stamp := stamp, owner := owner, started := false,
                    flow := Flow.start, bad := false, failed := false, parked := none, switched := false, by_ := by_ }
  let s := { s.setLse (dieOf c) (s.lseList (dieOf c) ++ [k]) with nextId := s.nextId + 1 }
  if lGate v then
    s.modCol c (fun col => col.modChan (lChan v) (fun ch => { ch with gate := ch.gate ++ [(k.id, ch.passHead)] }))
  else s

/-- The LSWAP of column `p` that is next at the LSE: the oldest copy-queue command of its band, highest band first, unless an
order holds it back (R145). -/
def Column.lswapNext (c : Column) (held : CCmd → Bool) : Option (CCmd × Nat) :=
  [3, 2, 1, 0].findSome? (fun b =>
    if c.csusp.any (fun k => k.band == b) then none
    else match c.copyq.find? (fun k => k.band == b) with
      | some k => match k.op with
        | .lswap v => if held k then none else some (k, v)
        | .cpy _ _ _ _ _ => none
      | none => none)

/-- The first post of the host (key d) or of the loader (key 2 + d) for column `p`. -/
def State.postNext (s : State) (p : Nat) : Option Nat :=
  findIx (fun q => decide (q.1 % 2 = dieOf p) && decide (lCol q.2 % 256 = p)) s.lsePost

/-- LSE_ACCEPT: the die's LSE accepts or refuses the next command of column `p`: its LSWAP, whose token is written, or a
post, whose refusal is reported. -/
def evLseAccept (p : Nat) (s : State) : Option State :=
  if 64 ≤ (s.lseList (dieOf p)).length ∨ s.proctor.power ≠ .run then none
  else match (s.col p).lswapNext (fun k => s.cmdHeld p k.band k.id) with
    | some (k, v) =>
      let token := match s.lseReason v with
        | none => 1
        | some r => 2 + 2 ^ 8 * r
      let t := match s.lseReason v with
        | none => s.lseEnter v (some (lStamp v)) p (((s.col p).firing k.band).map (fun _ => (p, k.band)))
        | some _ => s
      some (t.modCol p (fun c => (c.dropCopy k.id).completeReq k.band k.id (BitVec.ofNat 512 token) 0 0))
    | none => match s.postNext p with
      | none => none
      | some n => match s.lsePost[n]? with
        | none => none
        | some q =>
          let t := { s with lsePost := dropAt s.lsePost n }
          match s.lseReason q.2 with
          | none => some (t.lseEnter q.2 (if q.1 < 2 then some (lStamp q.2) else none) p none)
          | some r => some (t.reportOnly 0x202 0x3FF (w64 (2 + 2 ^ 8 * r + 2 ^ 16 * dieOf p)))

def execLseAccept (c : Nat) (s : State) : Out := event (evLseAccept c) s

/-- LSE_HOST_POST (R410): the fourth doubleword of a descriptor has been written; `v` is the whole descriptor, held in the
posting window. A descriptor that fails an issue check is refused with reason 0. -/
def State.lsePostHost (s : State) (d v : Nat) : State :=
  if dieOf (lCol v % 256) = d ∧ s.lseOk (lCol v % 256) v = true then { s with lsePost := s.lsePost ++ [(d, v)] }
  else s.reportOnly 0x202 0x3FF (w64 (2 + 2 ^ 16 * d))

/-! ## Carrying out (R321) -/

/-- The command may start: it is the oldest of its pair, its gate is met, and its handle is not in use. -/
def State.lseReady (s : State) (k : LCmd) : Bool :=
  let c := s.col k.col
  let ch := c.chan (lChan k.desc)
  ((s.lsePair k.col k.h).head?.map (·.id)) == some k.id && (c.handle k.h).inuse == 0 &&
    (!lGate k.desc || (ch.passHead && !ch.held && ch.gate.contains (k.id, false)))

def State.setLCmd (s : State) (d n : Nat) (k : LCmd) : State := s.setLse d (setAt (s.lseList d) n k)

def State.modHandle (s : State) (c h : Nat) (f : Handle → Handle) : State :=
  s.modCol c (fun k => { k with htab := sput Handle.empty k.htab h (f (k.handle h)) })

/-- The bytes of the handle a fill or refill writes: first byte, end. (Log 70: DEDUCED, unsafe) -/
def State.lseRange (s : State) (k : LCmd) : Nat × Nat :=
  let c := s.col k.col
  let h := c.handle k.h
  if lOp k.desc = 0 ∨ h.form = 2 then (0, h.len * 4096)
  else
    let size := if h.form = 1 then 64 else tileSize h.fmt
    let nt := c.ntiles h
    let t0 := fieldN k.desc 48 32
    let n := fieldN k.desc 63 49
    let last := if n = 0 then nt else min nt (t0 + n)
    (min t0 last * size, last * size)

/-- The source of a fill or refill. -/
def State.lseSource (s : State) (k : LCmd) : Nat :=
  if lOp k.desc = 1 ∧ lSrc k.desc = 0 then (((s.col k.col).handle k.h).src).getD 0 else lSrc k.desc

/-- The byte range of the tile in which byte `o` of the handle lies. -/
def Column.tileSpan (c : Column) (h : Handle) (o : Nat) : Nat × Nat :=
  match h.form with
  | 1 => (o / 64 * 64, 64)
  | 2 =>
    let n := min (c.ntiles h) (h.len * 1024)
    let offs := (List.range n).map (fun t => leNat (c.stackRead (h.at_ + 4 + 4 * t) 4))
    let lo := offs.foldl (fun m x => if x ≤ o then max m x else m) 0
    let hi := offs.foldl (fun m x => if o < x then min m x else m) (h.len * 4096)
    (lo, hi - lo)
  | _ => (o / tileSize h.fmt * tileSize h.fmt, tileSize h.fmt)

/-- Bytes of the handle from byte `o` on, at most up to its end. -/
def Column.poisonTile (c : Column) (h : Handle) (o : Nat) : Column :=
  let r := c.tileSpan h o
  c.stackPoison (h.at_ + r.1) (min r.2 (h.len * 4096 - r.1))

/-- The kind of a fill or refill, which the page of its source decides once (R132): 0 raw, 2 compressed; or that page's
fault. (Log 71: DEDUCED, unsafe) -/
def State.lseKind (s : State) (k : LCmd) : Except (Nat × Word) Nat :=
  match k.flow.mode, s.translateE (dieOf k.col) (s.lseSource k) false with
  | some m, _ => .ok m
  | none, .leaf t => .ok (if t.cmp then 2 else 0)
  | none, .fault c lv => .error (c, walkTval (s.lseSource k) lv false 6)

/-- The transfer of a fill or refill: raw from byte `lo` of the handle on; from a compressed source, whose chunks are expanded
from SRC on (R132), only into the bytes that the command names. (Log 71: DEDUCED, unsafe) -/
def State.lseJob (s : State) (k : LCmd) (mode : Nat) : Job :=
  let r := s.lseRange k
  let h := (s.col k.col).handle k.h
  let src := s.lseSource k
  if mode = 0 then
    { p := k.col, tmsg := 0, tepc := 0, src := .va (dieOf k.col) 6 (src + r.1), dst := .slice k.col (h.at_ + r.1), mode := 0,
      len := r.2 - r.1, lo := 0, hi := r.2 - r.1 }
  else
    { p := k.col, tmsg := 0, tepc := 0, src := .va (dieOf k.col) 6 src, dst := .slice k.col h.at_, mode := 2, len := r.2,
      lo := r.1, hi := r.2 }

/-- The handle bytes that an uncorrectable source granule reaches: the granule, or every byte of the chunk it lies in, and
of the later chunks where it holds the header that locates them. (Log 70: DEDUCED, unsafe) -/
def Job.reaches (j : Job) (f : Flow) (r : Nat × Nat) (g : Nat) : List Nat :=
  if j.mode = 0 then [r.1 + 8 * g]
  else
    let l := f.chunks j.nchunks (some 0)
    let lost : Option Nat := findIx (fun (x : ChunkRead × Option Nat) => match x.2 with
      | some o => decide (o < 8 * g + 8) && decide (8 * g < o + 4)
      | none => false) l
    let ks := (List.range l.length).filter (fun k => lost.elim false (fun n => decide (n ≤ k)) || match l[k]? with
      | some (_, some o) => match (f.bytes o 4).bind (fun b => headerNz (leNat b)) with
        | some nz => decide (o < 8 * g + 8) && decide (8 * g < o + 36 + nz)
        | none => decide (o < 8 * g + 8) && decide (8 * g < o + 36)
      | _ => false)
    (ks.flatMap (fun k => (List.range 32).map (fun i => 256 * k + 8 * i))).filter (fun o =>
      decide (r.1 ≤ o) && decide (o < r.2))

/-- The chunks of one tile from offset `o` of a handle's contents at `a` on: after an unusable header none can be
located. (Log 138: DEDUCED, unsafe) -/
def Column.tileChunks (c : Column) (a : Nat) : Nat → Option Nat → List (ChunkRead × Option Nat)
  | 0, _ => []
  | n + 1, none => ({ bytes := List.replicate 256 0, bad := true, len := none }, none) :: c.tileChunks a n none
  | n + 1, some o =>
    let u := chunkUnpack (c.stackRead (a + o) 292)
    (u, some o) :: c.tileChunks a n (u.len.map (o + ·))

/-- The chunks of a compressed handle that has been written, tile by tile, each with the offset of its header (R122,
R313). (Log 138: DEDUCED, unsafe) -/
def Column.formChunks (c : Column) (h : Handle) : List (ChunkRead × Option Nat) :=
  if h.form ≠ 2 then []
  else (List.range (min (c.ntiles h) (h.len * 1024))).flatMap (fun t =>
    c.tileChunks h.at_ (ceilDiv (tileSize h.fmt) 256) (some (leNat (c.stackRead (h.at_ + 4 + 4 * t) 4))))

/-- A fault on a source or stamp address: parked, or reported. -/
def State.lsePark (s : State) (d n : Nat) (k : LCmd) (e : Nat × Word) : State :=
  (s.reportPark k.col e.1 e.2 0 0).setLCmd d n { k with parked := some e }

/-- What is left of the writes of a started fill or refill; the check pattern then marks every tile with an uncorrectable
byte (R296), and malformed chunks enter the column's list. A malformed entry ends the command with status 2. -/
def State.lseRun (s : State) (d n : Nat) (k : LCmd) : State :=
  let j := s.lseJob k ((s.lseKind k).toOption.getD 0)
  let m : Moved := match s.lseKind k with
    | .error e => { st := s, flow := k.flow, fault := some e }
    | .ok x => j.run { st := s, flow := { k.flow with mode := some x }, fault := none }
  match m.fault with
  | none =>
    let h := (m.st.col k.col).handle k.h
    let offs := m.flow.bad.flatMap (j.reaches m.flow (m.st.lseRange k))
    let t := m.st.modCol k.col (fun c => offs.foldl (fun c o => c.poisonTile h o) c)
    let t := if j.mode = 2 then t.badChunks k.col 0 0 (s.lseSource k) (m.flow.chunks j.nchunks (some 0)) else t
    let t := t.badChunks k.col 0 0 (s.lseSource k) ((m.st.col k.col).formChunks h)
    t.setLCmd d n { k with flow := m.flow, bad := !m.flow.bad.isEmpty, switched := true }
  | some e =>
    if parks e then m.st.lsePark d n { k with flow := m.flow } e
    else (m.st.reportOnly e.1 k.col e.2).setLCmd d n { k with failed := true }

/-- The LSE makes one access of a started fill or refill (R148), under the conditions of LSE_FILL. -/
def State.lseTurn (s : State) (d n : Nat) (wr : Bool) (g : Nat) : Option State :=
  match (s.lseList d)[n]? with
  | none => none
  | some k =>
    if s.proctor.power != .run || lOp k.desc = 2 || !k.started || k.failed || k.switched || k.parked.isSome || s.proctor.rtPause.contains d ||
        ((s.col k.col).handle k.h).inuse != 0 then none
    else match s.lseKind k with
      | .error _ => none
      | .ok x => ((s.lseJob k x).move s { k.flow with mode := some x } wr g).map (fun m =>
          m.st.setLCmd d n { k with flow := m.flow })

/-- LSE_FILL and LSE_REFILL: the start of command n of die d, and then its writes, which wait while the handle is in use
(R124). -/
def evLseFill (op d n : Nat) (s : State) : Option State :=
  match (s.lseList d)[n]? with
  | none => none
  | some k =>
    if s.proctor.power ≠ .run ∨ lOp k.desc ≠ op ∨ k.failed = true ∨ k.parked.isSome = true ∨ k.switched = true then none
    else if !k.started then
      if s.lseReady k then
        let s := s.modHandle k.col k.h (fun h =>
          if op = 0 then { h with layer := fieldN k.desc 226 224, form := fieldN k.desc 228 227,
                                  fmt := fieldN k.desc 232 229, base := fieldN k.desc 243 233,
                                  len := fieldN k.desc 255 244, valid := false }
          else { h with valid := false })
        some (s.setLCmd d n { k with started := true })
      else none
    else if s.proctor.rtPause.contains d ∨ ((s.col k.col).handle k.h).inuse ≠ 0 then none
    else some (s.lseRun d n k)

def execLseFill (d n : Nat) (s : State) : Out := event (evLseFill 0 d n) s
/-- Log 70: DEDUCED, unsafe. -/
def execLseRefill (d n : Nat) (s : State) : Out := event (evLseFill 1 d n) s

/-- Copy the words of one area of a slice to another, with their flipped bits (R125: identical contents). -/
def Column.copyArea (c : Column) (src dst n : Nat) : Column :=
  let bs := (List.range n).map (fun i => sget 0 c.stack (src + i))
  let fl := (List.range (n / 8)).map (fun i => sget 0 c.stkFlip (src / 8 + i))
  let c := c.stackWrite dst bs
  { c with stkFlip := (List.range fl.length).foldl (fun m i => sput 0 m (dst / 8 + i) (fl.getD i 0)) c.stkFlip }

/-- LSE_RELOCATE: MOVING is set; then the tiles are copied and, in one cycle, the handle is switched; the old area stays
allocated for 12 more cycles (R125). -/
def evLseRelocate (d n : Nat) (s : State) : Option State :=
  match (s.lseList d)[n]? with
  | none => none
  | some k =>
    if s.proctor.power ≠ .run ∨ lOp k.desc ≠ 2 ∨ k.failed = true ∨ k.switched = true ∨ s.proctor.rtPause.contains d = true then none
    else if !k.started then
      if ((s.lsePair k.col k.h).head?.map (·.id)) == some k.id then
        some ((s.modHandle k.col k.h (fun h => { h with moving := true })).setLCmd d n { k with started := true })
      else none
    else
      let h := (s.col k.col).handle k.h
      let moved : Handle := { h with layer := fieldN k.desc 226 224, base := fieldN k.desc 243 233, moving := false }
      let s := s.modCol k.col (fun c => { c.copyArea h.at_ moved.at_ (h.len * 4096) with
        areas := c.areas.filter (fun x => decide (c.cycle < x.2.2.2)) ++ [(h.layer, h.base, h.len, c.cycle + 12)] })
      some ((s.modHandle k.col k.h (fun _ => moved)).setLCmd d n { k with switched := true })

def execLseRelocate (d n : Nat) (s : State) : Out := event (evLseRelocate d n) s

/-- Commands behind a failed one write no tile either, up to the next fill of the pair (R320). -/
def failBehind (c h : Nat) : List LCmd → List LCmd
  | [] => []
  | k :: t =>
    if k.col = c ∧ k.h = h then
      if lOp k.desc = 0 then k :: t else { k with failed := true } :: failBehind c h t
    else k :: failBehind c h t

/-- The command is complete: it leaves the list, and its marker gate is released. -/
def State.lseEnd (s : State) (d n : Nat) (k : LCmd) : State :=
  let l := s.lseList d
  let rest := if k.failed then l.take n ++ failBehind k.col k.h (l.drop (n + 1)) else dropAt l n
  (s.setLse d rest).modCol k.col (fun c =>
    if lGate k.desc then c.modChan (lChan k.desc) (fun ch => { ch with gate := ch.gate.filter (fun g => decide (g.1 ≠ k.id)) })
    else c)

/-- The completion stamp: SEQV and the status. -/
def LCmd.stampWord (k : LCmd) : Nat := fieldN k.desc 223 192 + 2 ^ 32 * (if k.failed then 2 else if k.bad then 1 else 0)

/-- LSE_COMPLETE: VALID is set and SRC recorded, and the stamp is written, its 8 bytes as they are on a compressed page too;
status 2 leaves the handle invalid. (Log 71: DEDUCED, unsafe) -/
def evLseComplete (d n : Nat) (s : State) : Option State :=
  match (s.lseList d)[n]? with
  | none => none
  | some k =>
    if s.proctor.power ≠ .run ∨ k.parked.isSome = true ∨ (k.switched = false ∧ k.failed = false) ∨
        ((s.lsePair k.col k.h).head?.map (·.id)) ≠ some k.id then none
    else
      let s := if k.failed || lOp k.desc == 2 then s
        else s.modHandle k.col k.h (fun h => { h with valid := true, src := some (s.lseSource k) })
      match k.stamp with
      | none => some (s.lseEnd d n k)
      | some a => match decodeAddr k.owner a with
        | none => some (s.lseEnd d n k)
        | some c =>
          if c.glob then
            match s.writePart k.col (.va d 6 c.off) 0 (leBytes 8 k.stampWord) with
            | .ok t => some (t.lseEnd d n k)
            | .error e =>
              if parks e = false then some ((s.reportOnly e.1 k.col e.2).lseEnd d n k)
              else some (s.lsePark d n k e)
          else some ((s.wrNat (.ls c.col c.off) 8 k.stampWord).lseEnd d n k)

def execLseComplete (d n : Nat) (s : State) : Out := event (evLseComplete d n) s

end Sys2Proof.Machine
end

