-- ==== Sys2Proof/Machine/Host.lean ====
section
/-!
DEFINITION. The queues of the host interface: launch queues (R411, R412), completion and fault rings (R426, R427), their
records (Table 17-6), fault notices, and the registers of the engine regions (R130) and of LSE posting (R410).
-/
namespace Sys2Proof.Machine

/-! ## Ring control (R411, R426) -/

/-- LOG2N values outside 3 to 12 store 3. -/
def log2nOf (n : Nat) : Nat := if 3 ≤ n ∧ n ≤ 12 then n else 3

/-- An MSI-X vector is masked by bit 0 of the last doubleword half of its table entry. (Log 93: PRESUMED, unsafe) -/
def State.masked (s : State) (v : Nat) : Bool := (sget 0 s.msixTable (16 * v + 12)).getLsbD 0

/-- An MSI-X vector is raised; a masked one is pending. (Log 93: PRESUMED, unsafe; 122: DEDUCED, unsafe) -/
def State.vector (s : State) (v : Nat) : State :=
  if s.masked v then { s with pba := v :: s.pba.filter (fun x => decide (x ≠ v)) } else { s with irqs := s.irqs ++ [v] }

/-- Pending vectors whose mask has been cleared are raised. -/
def State.unmask (s : State) : State :=
  { s with pba := s.pba.filter s.masked, irqs := s.irqs ++ (List.range 16).filter (fun v => s.pba.contains v && !s.masked v) }

def State.lqOf (s : State) (q : Nat) : LQueue := sget LQueue.reset s.lq q
def State.setLq (s : State) (q : Nat) (k : LQueue) : State := { s with lq := sput LQueue.reset s.lq q k }
def State.rqOf (s : State) (c : Nat) : RQueue := sget RQueue.reset s.rq c
def State.setRq (s : State) (c : Nat) (k : RQueue) : State := { s with rq := sput RQueue.reset s.rq c k }

/-- LQCTL written: setting EN zeroes HEAD, TAIL and the packet counter; a packet already read keeps its number (it runs
on); LOG2N and LOC change only while EN = 0. (Log 92: DEDUCED, unsafe) -/
def LQueue.control (k : LQueue) (v : Nat) : LQueue :=
  let k := { k with pri := fieldN v 7 6 }
  if k.en then { k with en := bitN v 5 }
  else
    let k := { k with log2n := log2nOf (fieldN v 3 0), loc := bitN v 4 }
    if bitN v 5 then { k with en := true, head := 0, tail := 0, seq := if k.pkt.isSome then k.seq else 0, err := false, dirty := [] }
    else k

def LQueue.setBase (k : LQueue) (v : Nat) : LQueue := if k.en then k else { k with base := v / 128 * 128 }

/-- CQCTL and FQCTL by the same rules; setting EN zeroes TAIL and HEAD and sets PHASE. -/
def RQueue.control (k : RQueue) (v : Nat) : RQueue :=
  let k := { k with ie := bitN v 6 }
  if k.en then { k with en := bitN v 5 }
  else
    let k := { k with log2n := log2nOf (fieldN v 3 0), loc := bitN v 4 }
    if bitN v 5 then { k with en := true, head := 0, tail := 0, phase := true } else k

def RQueue.setBase (k : RQueue) (v : Nat) : RQueue := if k.en then k else { k with base := v / 32 * 32 }

/-- LQ_ENABLE and LQ_DISABLE: a write of queue q's LQCTL that sets or clears EN. (Log 92: DEDUCED, unsafe) -/
def evLqControl (en : Bool) (q : Nat) (v : Word) (s : State) : Option State :=
  if q < 64 ∧ v.getLsbD 5 = en then some (s.setLq q ((s.lqOf q).control v.toNat)) else none

def execLqEnable (q : Nat) (v : Word) (s : State) : Out := barEvent (evLqControl true q v) s
def execLqDisable (q : Nat) (v : Word) (s : State) : Out := barEvent (evLqControl false q v) s

/-- Byte `o` of a launch queue's ring. -/
def State.lqByte (s : State) (k : LQueue) (o : Nat) : Byte :=
  if k.loc then sget 0 s.lqSram ((k.base + o) % 0x80000) else s.rd (.host (k.base + o))

/-- A thermal sensor is at TCRIT or above, or package power at 700 W or above: no further packet is read (R460). -/
def State.launchHeld (s : State) : Bool :=
  (List.range 64).any (fun i => decide ((fieldW s.proctor.thresh 23 12 : Int) ≤ sx 16 (sget 0 s.proctor.sensors i))) ||
  decide (7000 ≤ sget 0 s.proctor.sensors 112 % 2 ^ 16)

/-- `n` bytes at `a` of the launch-queue SRAM are written. -/
def State.markRings (s : State) (a n : Nat) : State := { s with lq := markQueues s.lq true a n }

/-- The dispatcher reads the next packet of queue q, once, when the one before has been dispatched (R412). The sequence
number of a packet is its count. What a slot holds that was written after its doorbell is open (R413). -/
def State.pullOne (s : State) (q : Nat) : State :=
  let k := s.lqOf q
  if k.en && !k.err && k.pkt.isNone && k.head != k.tail && s.proctor.power == .run && !s.launchHeld then
    let o := k.head % 2 ^ k.log2n * 128
    let bad := k.dirty.contains k.head
    let bs := if bad then freeBytes s.nextFree 128 else (List.range 128).map (fun i => s.lqByte k (o + i))
    { s with nextFree := s.nextFree + if bad then 128 else 0 }.setLq q
      { k with pkt := some bs, seq := k.head, head := (k.head + 1) % 2 ^ 16, readAt := s.pktCycle,
               dirty := k.dirty.filter (fun i => decide (i ≠ k.head)) }
  else s

/-- Every queue's next packet is read. -/
def State.pull (s : State) : State := (s.lq.map (·.1)).foldl State.pullOne s

/-- How far count `a` is ahead of count `b`, modulo 2^16. -/
def aheadOf (a b : Nat) : Nat := um 16 ((a : Int) - (b : Int))

/-- A doorbell in doze requests a wake when AUTOWAKE is set (R457). -/
def State.ringWake (s : State) : State :=
  if s.proctor.power = .doze ∧ s.proctor.autowake = true then { s with proctor := { s.proctor with wake := true } } else s

/-- LQ_DOORBELL (R412): TAIL is raised, or the write is refused and stops the queue. One written before the run state is
discarded (R449); in doze it is kept (R457). (Log 92: DEDUCED, unsafe) -/
def evDoorbell (q : Nat) (v : Word) (s : State) : Option State :=
  if 64 ≤ q then none
  else if s.proctor.power = .boot then some s
  else
    let k := s.lqOf q
    let t := v.toNat % 2 ^ 16
    if 2 ^ k.log2n < aheadOf t k.head then
      some (((s.setLq q { k with err := true }).reportOnly 0x288 0x3FF (w64 (q + 2 ^ 16 * t))).vector 9).ringWake
    else some (s.setLq q { k with tail := t }).pull.ringWake

def execLqDoorbell (q : Nat) (v : Word) (s : State) : Out := barEvent (evDoorbell q v) s

/-- The location of byte `o` of a ring. -/
def RQueue.at_ (k : RQueue) (o : Nat) : Loc := if k.loc then .gd (k.base + o) else .host (k.base + o)

/-- Log 91: DEDUCED, unsafe. -/
def RQueue.full (k : RQueue) : Bool := !k.en || aheadOf k.tail k.head == 2 ^ k.log2n

/-! ## Records (Table 17-6) -/

/-- The 32 bytes of a record are written in slot TAIL; PHASE inverts at each wrap. -/
def State.putRecord (s : State) (c rec : Nat) : State :=
  let k := s.rqOf c
  let slot := k.tail % 2 ^ k.log2n
  let s := s.wrNat (k.at_ (32 * slot)) 32 (rec + 2 ^ 23 * b2n k.phase)
  s.setRq c { k with tail := (k.tail + 1) % 2 ^ 16, phase := if slot + 1 = 2 ^ k.log2n then !k.phase else k.phase }

/-- The status of a packet is kept when its record is written, the last 256 of a queue (R415). -/
def State.keepStatus (s : State) (rec : Nat) : State :=
  let q := fieldN rec 21 16
  let k := s.lqOf q
  let done := k.done ++ [(fieldN rec 39 24, fieldN rec 47 40)]
  s.setLq q { k with done := if 256 < done.length then done.drop 1 else done }

/-- Completion records that wait are written while there is room; bit 256 asks for the queue's vector. `fuel` bounds their
number. -/
def State.drainRing (s : State) (c : Nat) : Nat → State
  | 0 => s
  | f + 1 =>
    let k := s.rqOf c
    match k.waiting with
    | [] => s
    | r :: t =>
      if k.full then s
      else
        let s := ((s.setRq c { k with waiting := t }).putRecord c (r % 2 ^ 256)).keepStatus r
        (if bitN r 256 && k.ie then s.vector c else s).drainRing c f

/-- Packets that a queue's 256 waiting records held back are dispatched when fewer wait than that (R427, R424). -/
def State.drain (s : State) (c : Nat) : State :=
  let n := (s.rqOf c).waiting.length
  let t := s.drainRing c n
  let held (q : LQueue) : Bool := q.pkt.elim false (fun b => fieldN (leNat b) 14 12 == c)
  if 256 ≤ n ∧ (t.rqOf c).waiting.length < 256 then
    { t with lq := t.lq.map (fun q => if held q.2 then (q.1, { q.2 with readAt := t.pktCycle }) else q) }
  else t

/-- A completion record falls due on queue c. (Log 91: DEDUCED, unsafe) -/
def State.addRecord (s : State) (c rec : Nat) (irq : Bool) : State :=
  let k := s.rqOf c
  (s.setRq c { k with waiting := k.waiting ++ [rec + 2 ^ 256 * b2n irq] }).drain c

/-- A fault record without its PHASE. -/
def FaultRec.word (f : FaultRec) : Nat :=
  f.cause + 2 ^ 10 * f.path + 2 ^ 12 * f.col + 2 ^ 24 * f.ctx + 2 ^ 32 * f.rseq + 2 ^ 64 * f.tval.toNat +
    2 ^ 128 * f.tmsg.toNat + 2 ^ 192 * (f.tepc % 2 ^ 20)

/-- FAULT_NOTICE (R61, R427): the n-th notice reaches the dispatcher, which writes its record. On a full ring a class 0x300
record goes to the journal only, where every one of them stands since its report; any other is discarded and counted. -/
def evFaultNotice (n : Nat) (s : State) : Option State :=
  match s.notices[n]? with
  | none => none
  | some f =>
    let s := { s with notices := dropAt s.notices n }
    let k := s.rqOf 8
    if !k.full then
      let s := s.putRecord 8 f.word
      some (if k.ie then s.vector 8 else s)
    else if class300 f.cause then some s
    else some { s with fqLost := min (s.fqLost + 1) 0xFFFFFFFF }

def execFaultNotice (n : Nat) (s : State) : Out := event (evFaultNotice n) s

/-- RECORD_RING_ENABLE and RECORD_RING_DISABLE: a write of CQCTL (queue 0 to 7) or FQCTL (8) that sets or clears EN. -/
def evRingControl (en : Bool) (c : Nat) (v : Word) (s : State) : Option State :=
  if c ≤ 8 ∧ v.getLsbD 5 = en then
    let s := s.setRq c ((s.rqOf c).control v.toNat)
    some (s.drain c)
  else none

def execRecordRingEnable (q : Nat) (v : Word) (s : State) : Out := barEvent (evRingControl true q v) s
def execRecordRingDisable (q : Nat) (v : Word) (s : State) : Out := barEvent (evRingControl false q v) s

/-- RECORD_RING_HEAD_WRITE: the driver has consumed records; records that wait are written. -/
def evRingHead (c : Nat) (v : Word) (s : State) : Option State :=
  if c ≤ 8 then
    let s := s.setRq c { s.rqOf c with head := v.toNat % 2 ^ 16 }
    some (s.drain c)
  else none

def execRecordRingHeadWrite (q : Nat) (v : Word) (s : State) : Out := barEvent (evRingHead q v) s

/-! ## Engine regions (R130) and LSE posting (R410) -/

/-- ENGINE_REGION_WRITE: register n of the view at BAR0 0x4000. A write of KVCNT or FLBASE empties the free-list ring;
one made while a region is loaded is taken like any other. (Log 144: DESIGN CHOICE, unsafe) -/
def evEngineRegion (n : Nat) (v : Word) (s : State) : Option State :=
  let a := v.toNat % 2 ^ 47
  match n with
  | 0 => some { s with kvbase := a }
  | 1 => some { s with kvcnt := v.toNat % 2 ^ 25, flHead := 0, flCount := 0 }
  | 2 => some { s with flbase := a, flHead := 0, flCount := 0 }
  | 3 => some { s with ssbase := a }
  | 4 => some { s with sslen := a }
  | _ => none

def execEngineRegionWrite (n : Nat) (v : Word) (s : State) : Out := barEvent (evEngineRegion n v) s

/-- The descriptor in die d's posting window. -/
def State.winDesc (s : State) (d : Nat) : Nat :=
  (List.range 4).foldl (fun n i => n + 2 ^ (64 * i) * sget 0 s.lseWin (4 * d + i)) 0

/-- A write of doubleword i of die d's posting window; the fourth posts the descriptor. -/
def State.winWrite (s : State) (d i : Nat) (v : Word) : State :=
  let s := { s with lseWin := sput 0 s.lseWin (4 * d + i) v.toNat }
  if i = 3 then s.lsePostHost d (s.winDesc d) else s

/-- LSE_HOST_POST: the host writes the fourth doubleword of a descriptor. -/
def evLsePost (d : Nat) (v : Word) (s : State) : Option State := if d < 2 then some (s.winWrite d 3 v) else none

def execLseHostPost (d : Nat) (v : Word) (s : State) : Out := barEvent (evLsePost d v) s

end Sys2Proof.Machine
end

