-- ==== Sys2Proof/WellFormed.lean ====
section
/-!
DEFINITION. Which field values of an instruction are admitted (R199 reason 3, and the operand rules that rest on a
field's value alone): lane types (Tables 8-6, 9-1), ordering-and-scope codes (Table 8-1), scopes (R137), rounding modes
(R168), system register numbers (Table 8-3), the token register of an engine command (R305), VHAD stages (R268),
VCVT destinations (R276). Steps without an encoding carry no field that the spec reserves: they are all well formed.
-/
namespace Sys2Proof

/-- Lane types of Table 8-6: integer .b .h .w are 0 to 2, .bf16 is 5, .f32 is 6. -/
def laneInt (t : BitVec 3) : Bool := t.toNat ≤ 2
def laneFloat (t : BitVec 3) : Bool := t == 5#3 || t == 6#3
def laneAll (t : BitVec 3) : Bool := laneInt t || laneFloat t

/-- log2 of the lane count (R268): 6 for .b, 5 for .h and .bf16, 4 for .w and .f32. -/
def laneLog (t : BitVec 3) : Nat := if t == 0#3 then 6 else if t == 1#3 || t == 5#3 then 5 else 4

/-- Ordering-and-scope codes of Table 8-1: none or acquire; none or release. -/
def acqCode (s : BitVec 4) : Bool := s.toNat ≤ 5
def relCode (s : BitVec 4) : Bool := s == 0#4 || (6 ≤ s.toNat && s.toNat ≤ 10)

/-- Scope codes 5 to 7 are illegal (R137). -/
def scopeOk (s : BitVec 3) : Bool := s.toNat ≤ 4

/-- Rounding modes 5 to 7 are reserved (R168). -/
def modeOk (m : BitVec 3) : Bool := m.toNat ≤ 4

/-- The numbers that Table 8-3 assigns. -/
def sysAssigned (r : BitVec 12) : Bool :=
  let n := r.toNat
  n ≤ 0x009 || (0x010 ≤ n && n ≤ 0x013) || (0x018 ≤ n && n ≤ 0x01C) || n == 0x020 ||
  (0x040 ≤ n && n ≤ 0x057) || (0x100 ≤ n && n ≤ 0x1FF)

/-- VCVT destination codes: windows 1 to 14, 17 (.h) and 18 (.w) (R276). -/
def cvtDest (k : BitVec 5) : Bool := (1 ≤ k.toNat && k.toNat ≤ 14) || k == 17#5 || k == 18#5
def cvtInt (k : BitVec 5) : Bool := k.toNat ≤ 4 || k == 17#5 || k == 18#5

/-- A well-formed instruction: every field holds a value its table admits. -/
def Instr.wf : Instr → Bool
  | .firingStart _ => true
  | .firingResume _ => true
  | .firingCommit _ _ => true
  | .firingAbort _ _ => true
  | .watchdogExpiry _ _ => true
  | .starvationBoost _ _ => true
  | .trapBankEntry _ => true
  | .deferredTrap _ _ => true
  | .emptyEntryTimeout _ _ => true
  | .registerWriteback _ _ _ => true
  | .messageInjection _ => true
  | .routerForward _ => true
  | .boundaryProbeAnswer _ => true
  | .reductionStage _ => true
  | .carryAdmit _ => true
  | .messageDelivery _ => true
  | .heldMessageTimeout _ => true
  | .channelOpen _ => true
  | .creditMessage _ => true
  | .memoryRequest _ _ => true
  | .memoryResponse _ => true
  | .acknowledgement _ => true
  | .refusal _ => true
  | .faultNotice _ => true
  | .configurationMessage _ => true
  | .markerPass _ _ => true
  | .snapshotAlignedCapture _ _ => true
  | .alignmentLimitExpiry _ _ => true
  | .taskDecrement _ _ _ => true
  | .spliceWavefront _ => true
  | .spliceSwitch _ => true
  | .mwaitRead _ => true
  | .pbwaitRead _ => true
  | .matrixCommandStart _ => true
  | .matrixStep _ => true
  | .matrixCommandComplete _ => true
  | .copyStart _ => true
  | .copyComplete _ => true
  | .templateFire _ _ => true
  | .templateComplete _ _ => true
  | .lseAccept _ => true
  | .lseFill _ _ => true
  | .lseRefill _ _ => true
  | .lseRelocate _ _ => true
  | .lseComplete _ _ => true
  | .kvappComplete _ => true
  | .freeListOperation _ => true
  | .stateStoreCommand _ => true
  | .translationWalk _ _ _ => true
  | .lqDoorbell _ _ => true
  | .lqEnable _ _ => true
  | .lqDisable _ _ => true
  | .launch _ => true
  | .spliceLaunch _ => true
  | .noopPacket _ => true
  | .imageFetch _ => true
  | .graphEnd _ => true
  | .recordRingEnable _ _ => true
  | .recordRingDisable _ _ => true
  | .recordRingHeadWrite _ _ => true
  | .engineRegionWrite _ _ => true
  | .freeListHostPush _ => true
  | .lseHostPost _ _ => true
  | .ccinvWrite _ => true
  | .ptrootWrite _ => true
  | .retry _ => true
  | .fail _ => true
  | .refire _ => true
  | .release _ => true
  | .kill _ => true
  | .inval _ => true
  | .step _ => true
  | .run _ => true
  | .bar2Read _ _ => true
  | .bar2Write _ _ => true
  | .hostAtomicopRequest => true
  | .genericRegisterWrite _ _ => true
  | .resetRelease => true
  | .bootComplete => true
  | .ident _ => true
  | .attest _ => true
  | .updstage _ => true
  | .updactivate _ => true
  | .svncommit _ => true
  | .doze _ => true
  | .wake _ => true
  | .wakeComplete => true
  | .replan _ => true
  | .rcarm _ => true
  | .rctrig _ => true
  | .rchostWrite _ => true
  | .rollCallPin => true
  | .rcread _ => true
  | .inject _ => true
  | .jread _ => true
  | .jclear _ => true
  | .sensorSample _ _ => true
  | .replanTimer => true
  | .voltageOffsetStep _ => true
  | .retrainingDue _ => true
  | .retrainingStart _ => true
  | .retrainingForced _ => true
  | .retrainingEnd _ => true
  | .externalLinkFailure _ _ => true
  | .nop => true
  | .endFiring => true
  | .trap _ _ _ => true
  | .tretRetry => true
  | .tretNext => true
  | .tretAbort => true
  | .snap _ _ => true
  | .sysrd _ r => sysAssigned r
  | .syswr _ r => sysAssigned r
  | .beq _ _ _ => true
  | .bne _ _ _ => true
  | .blt _ _ _ => true
  | .bge _ _ _ => true
  | .bltu _ _ _ => true
  | .bgeu _ _ _ => true
  | .jal _ => true
  | .jalr _ _ _ => true
  | .loop _ _ => true
  | .ldch _ _ _ => true
  | .ldB _ _ _ => true
  | .ldH _ _ _ => true
  | .ldW _ _ _ => true
  | .ldD _ _ _ => true
  | .lduB _ _ _ => true
  | .lduH _ _ _ => true
  | .lduW _ _ _ => true
  | .ldfF32 _ _ _ => true
  | .ldfBf16 _ _ _ => true
  | .stB _ _ _ => true
  | .stH _ _ _ => true
  | .stW _ _ _ => true
  | .stD _ _ _ => true
  | .stfF32 _ _ _ => true
  | .stfBf16 _ _ _ => true
  | .vld _ _ _ t s => laneAll t && acqCode s
  | .vst _ _ _ t s => laneAll t && relCode s
  | .vlds _ _ _ t s => laneAll t && acqCode s
  | .vsts _ _ _ t s => laneAll t && relCode s
  | .vgath _ _ _ t s => laneAll t && acqCode s
  | .vscat _ _ _ t s => laneAll t && relCode s
  | .amoAdd _ _ _ _ => true
  | .amoAnd _ _ _ _ => true
  | .amoOr _ _ _ _ => true
  | .amoXor _ _ _ _ => true
  | .amoMin _ _ _ _ => true
  | .amoMax _ _ _ _ => true
  | .amoSwap _ _ _ _ => true
  | .amoCas _ _ _ _ => true
  | .fence _ _ _ s => scopeOk s
  | .lfence _ => true
  | .acvtOff _ _ => true
  | .acvtG _ _ => true
  | .acvtL _ _ => true
  | .acvtC _ _ => true
  | .acvtLc _ _ => true
  | .acvtCl _ _ => true
  | .atest _ _ => true
  | .recv _ _ => true
  | .send _ _ => true
  | .peek _ _ _ => true
  | .chst _ _ => true
  | .bella _ => true
  | .bellw _ _ => true
  | .bellt _ _ => true
  | .pbarr _ _ _ _ => true
  | .pbwait _ _ _ s => acqCode s
  | .mwait _ _ _ c _ s => acqCode s && c != 3#2
  | .cpy d _ _ s => d != 0#5 && scopeOk s
  | .cpyS d _ _ s => d != 0#5 && scopeOk s
  | .ctarm _ _ => true
  | .ctarmOff _ => true
  | .lswap d _ => d != 0#5
  | .kvapp d _ _ z => d != 0#5 && z != 7#3
  | .ktbfill _ _ => true
  | .ktbinvOne _ => true
  | .ktbinvSeq _ => true
  | .ktbinvAll => true
  | .flpop d => d != 0#5
  | .flpush d _ => d != 0#5
  | .ssld d _ _ => d != 0#5
  | .ssst d _ _ _ => d != 0#5
  | .ssnap d _ => d != 0#5
  | .ssroll d _ => d != 0#5
  | .ssfork d _ _ => d != 0#5
  | .ssdrop d _ => d != 0#5
  | .add _ _ _ => true
  | .sub _ _ _ => true
  | .and _ _ _ => true
  | .or _ _ _ => true
  | .xor _ _ _ => true
  | .shl _ _ _ => true
  | .shr _ _ _ => true
  | .sar _ _ _ => true
  | .slt _ _ _ => true
  | .sltu _ _ _ => true
  | .min _ _ _ => true
  | .max _ _ _ => true
  | .minu _ _ _ => true
  | .maxu _ _ _ => true
  | .clz _ _ => true
  | .popc _ _ => true
  | .andn _ _ _ => true
  | .addi _ _ _ => true
  | .andi _ _ _ => true
  | .ori _ _ _ => true
  | .xori _ _ _ => true
  | .shli _ _ _ => true
  | .shri _ _ _ => true
  | .sari _ _ _ => true
  | .slti _ _ _ => true
  | .sltiu _ _ _ => true
  | .mul _ _ _ => true
  | .mulhs _ _ _ => true
  | .mulhu _ _ _ => true
  | .mulhm _ _ _ => true
  | .mul32s _ _ _ => true
  | .divs _ _ _ => true
  | .divu _ _ _ => true
  | .rems _ _ _ => true
  | .remu _ _ _ => true
  | .li _ _ => true
  | .lis _ _ => true
  | .fadd _ _ _ m => modeOk m
  | .fsub _ _ _ m => modeOk m
  | .fmul _ _ _ m => modeOk m
  | .fdiv _ _ _ m => modeOk m
  | .fsqrt _ _ m => modeOk m
  | .fmin _ _ _ => true
  | .fmax _ _ _ => true
  | .fabs _ _ => true
  | .fneg _ _ => true
  | .fmadd _ _ _ m => modeOk m
  | .fmsub _ _ _ m => modeOk m
  | .fnmadd _ _ _ m => modeOk m
  | .fnmsub _ _ _ m => modeOk m
  | .fcmp _ _ _ c => c.toNat ≤ 4
  | .fcvtF32L _ _ m _ => modeOk m
  | .fcvtF32Lu _ _ m _ => modeOk m
  | .fcvtLF32 _ _ m => modeOk m
  | .fcvtLuF32 _ _ m => modeOk m
  | .fcvtWF32 _ _ m => modeOk m
  | .fcvtBf16F32 _ _ m _ => modeOk m
  | .fcvtF32Bf16 _ _ => true
  | .vadd _ _ _ t => laneInt t
  | .vsub _ _ _ t => laneInt t
  | .vadds _ _ _ t => laneInt t
  | .vsubs _ _ _ t => laneInt t
  | .vmul _ _ _ t => laneInt t
  | .vmulh _ _ _ t => laneInt t
  | .vmin _ _ _ t => laneInt t
  | .vmax _ _ _ t => laneInt t
  | .vand _ _ _ t => laneInt t
  | .vor _ _ _ t => laneInt t
  | .vxor _ _ _ t => laneInt t
  | .vshl _ _ _ t => laneInt t
  | .vshr _ _ _ t => laneInt t
  | .vsar _ _ _ t => laneInt t
  | .vabs _ _ t => laneInt t
  | .vfadd _ _ _ t => laneFloat t
  | .vfsub _ _ _ t => laneFloat t
  | .vfmul _ _ _ t => laneFloat t
  | .vfdiv _ _ _ t => laneFloat t
  | .vfsqrt _ _ t => laneFloat t
  | .vfmin _ _ _ t => laneFloat t
  | .vfmax _ _ _ t => laneFloat t
  | .vfabs _ _ t => laneFloat t
  | .vfneg _ _ t => laneFloat t
  | .vfmadd _ _ _ t => laneFloat t
  | .vfmsub _ _ _ t => laneFloat t
  | .vfnmadd _ _ _ t => laneFloat t
  | .vfnmsub _ _ _ t => laneFloat t
  | .vcmp _ _ _ t c => laneAll t && c != 7#3 && (c.toNat < 4 || (c.toNat < 6 && laneInt t) || (c == 6#3 && laneFloat t))
  | .qand _ _ _ => true
  | .qor _ _ _ => true
  | .qxor _ _ _ => true
  | .qandn _ _ _ => true
  | .qsetx _ _ => true
  | .qgetx _ _ => true
  | .vsel _ _ _ t _ => laneAll t
  | .vbcastX _ _ t => laneAll t
  | .vbcastLane _ _ _ t => laneAll t
  | .vperm _ _ _ t => laneAll t
  | .vexp2 _ _ t => laneFloat t
  | .vrcp _ _ t => laneFloat t
  | .vrsq _ _ t => laneFloat t
  | .vredAdd _ _ _ t => laneAll t
  | .vredMax _ _ _ t => laneAll t
  | .vredMin _ _ _ t => laneAll t
  | .vredMaxi _ _ _ t => laneAll t
  | .vxtr _ _ _ t => laneAll t
  | .vpopq _ _ t => laneAll t
  | .vsumkAcc d _ _ => d.toNat % 2 == 0
  | .vsumkScale d _ _ => d.toNat % 2 == 0
  | .vsumkFold d _ => d.toNat % 2 == 0
  | .vsumkFin d _ => d.toNat % 2 == 0
  | .vscan _ _ _ t _ o => laneAll t && o != 3#2
  | .vhad _ _ k t => laneAll t && k.toNat < laneLog t
  | .vcvt _ _ k t s m => laneAll t && modeOk m && cvtDest k && (!cvtInt k || s == 0#1)
  | .mzero _ _ => true
  | .mma _ _ _ _ => true
  | .mmag _ _ _ _ => true
  | .mprom _ => true
  | .mrdW _ _ _ => true
  | .mrdF32 _ _ _ _ m => modeOk m
  | .mrdBf16 _ _ _ _ m => modeOk m
  | .mrdRaw _ _ _ => true
  | .mrdStat _ _ => true
  | .mst _ _ _ _ _ m => modeOk m
  | .mscl _ _ _ => true
  | .seedx _ _ _ => true
  | .seedfit _ _ _ n => n.toNat ≤ 20
  | .illegalInstruction _ _ => true
  | .unknownCommand _ => true
  | .badPacket _ => true
  | .powerLoss => true

/-- The instruction is one of the 211 that have an encoding. -/
def Instr.encoded : Instr → Bool
  | .firingStart _ => false
  | .firingResume _ => false
  | .firingCommit _ _ => false
  | .firingAbort _ _ => false
  | .watchdogExpiry _ _ => false
  | .starvationBoost _ _ => false
  | .trapBankEntry _ => false
  | .deferredTrap _ _ => false
  | .emptyEntryTimeout _ _ => false
  | .registerWriteback _ _ _ => false
  | .messageInjection _ => false
  | .routerForward _ => false
  | .boundaryProbeAnswer _ => false
  | .reductionStage _ => false
  | .carryAdmit _ => false
  | .messageDelivery _ => false
  | .heldMessageTimeout _ => false
  | .channelOpen _ => false
  | .creditMessage _ => false
  | .memoryRequest _ _ => false
  | .memoryResponse _ => false
  | .acknowledgement _ => false
  | .refusal _ => false
  | .faultNotice _ => false
  | .configurationMessage _ => false
  | .markerPass _ _ => false
  | .snapshotAlignedCapture _ _ => false
  | .alignmentLimitExpiry _ _ => false
  | .taskDecrement _ _ _ => false
  | .spliceWavefront _ => false
  | .spliceSwitch _ => false
  | .mwaitRead _ => false
  | .pbwaitRead _ => false
  | .matrixCommandStart _ => false
  | .matrixStep _ => false
  | .matrixCommandComplete _ => false
  | .copyStart _ => false
  | .copyComplete _ => false
  | .templateFire _ _ => false
  | .templateComplete _ _ => false
  | .lseAccept _ => false
  | .lseFill _ _ => false
  | .lseRefill _ _ => false
  | .lseRelocate _ _ => false
  | .lseComplete _ _ => false
  | .kvappComplete _ => false
  | .freeListOperation _ => false
  | .stateStoreCommand _ => false
  | .translationWalk _ _ _ => false
  | .lqDoorbell _ _ => false
  | .lqEnable _ _ => false
  | .lqDisable _ _ => false
  | .launch _ => false
  | .spliceLaunch _ => false
  | .noopPacket _ => false
  | .imageFetch _ => false
  | .graphEnd _ => false
  | .recordRingEnable _ _ => false
  | .recordRingDisable _ _ => false
  | .recordRingHeadWrite _ _ => false
  | .engineRegionWrite _ _ => false
  | .freeListHostPush _ => false
  | .lseHostPost _ _ => false
  | .ccinvWrite _ => false
  | .ptrootWrite _ => false
  | .retry _ => false
  | .fail _ => false
  | .refire _ => false
  | .release _ => false
  | .kill _ => false
  | .inval _ => false
  | .step _ => false
  | .run _ => false
  | .bar2Read _ _ => false
  | .bar2Write _ _ => false
  | .hostAtomicopRequest => false
  | .genericRegisterWrite _ _ => false
  | .resetRelease => false
  | .bootComplete => false
  | .ident _ => false
  | .attest _ => false
  | .updstage _ => false
  | .updactivate _ => false
  | .svncommit _ => false
  | .doze _ => false
  | .wake _ => false
  | .wakeComplete => false
  | .replan _ => false
  | .rcarm _ => false
  | .rctrig _ => false
  | .rchostWrite _ => false
  | .rollCallPin => false
  | .rcread _ => false
  | .inject _ => false
  | .jread _ => false
  | .jclear _ => false
  | .sensorSample _ _ => false
  | .replanTimer => false
  | .voltageOffsetStep _ => false
  | .retrainingDue _ => false
  | .retrainingStart _ => false
  | .retrainingForced _ => false
  | .retrainingEnd _ => false
  | .externalLinkFailure _ _ => false
  | .nop => true
  | .endFiring => true
  | .trap _ _ _ => true
  | .tretRetry => true
  | .tretNext => true
  | .tretAbort => true
  | .snap _ _ => true
  | .sysrd _ _ => true
  | .syswr _ _ => true
  | .beq _ _ _ => true
  | .bne _ _ _ => true
  | .blt _ _ _ => true
  | .bge _ _ _ => true
  | .bltu _ _ _ => true
  | .bgeu _ _ _ => true
  | .jal _ => true
  | .jalr _ _ _ => true
  | .loop _ _ => true
  | .ldch _ _ _ => true
  | .ldB _ _ _ => true
  | .ldH _ _ _ => true
  | .ldW _ _ _ => true
  | .ldD _ _ _ => true
  | .lduB _ _ _ => true
  | .lduH _ _ _ => true
  | .lduW _ _ _ => true
  | .ldfF32 _ _ _ => true
  | .ldfBf16 _ _ _ => true
  | .stB _ _ _ => true
  | .stH _ _ _ => true
  | .stW _ _ _ => true
  | .stD _ _ _ => true
  | .stfF32 _ _ _ => true
  | .stfBf16 _ _ _ => true
  | .vld _ _ _ _ _ => true
  | .vst _ _ _ _ _ => true
  | .vlds _ _ _ _ _ => true
  | .vsts _ _ _ _ _ => true
  | .vgath _ _ _ _ _ => true
  | .vscat _ _ _ _ _ => true
  | .amoAdd _ _ _ _ => true
  | .amoAnd _ _ _ _ => true
  | .amoOr _ _ _ _ => true
  | .amoXor _ _ _ _ => true
  | .amoMin _ _ _ _ => true
  | .amoMax _ _ _ _ => true
  | .amoSwap _ _ _ _ => true
  | .amoCas _ _ _ _ => true
  | .fence _ _ _ _ => true
  | .lfence _ => true
  | .acvtOff _ _ => true
  | .acvtG _ _ => true
  | .acvtL _ _ => true
  | .acvtC _ _ => true
  | .acvtLc _ _ => true
  | .acvtCl _ _ => true
  | .atest _ _ => true
  | .recv _ _ => true
  | .send _ _ => true
  | .peek _ _ _ => true
  | .chst _ _ => true
  | .bella _ => true
  | .bellw _ _ => true
  | .bellt _ _ => true
  | .pbarr _ _ _ _ => true
  | .pbwait _ _ _ _ => true
  | .mwait _ _ _ _ _ _ => true
  | .cpy _ _ _ _ => true
  | .cpyS _ _ _ _ => true
  | .ctarm _ _ => true
  | .ctarmOff _ => true
  | .lswap _ _ => true
  | .kvapp _ _ _ _ => true
  | .ktbfill _ _ => true
  | .ktbinvOne _ => true
  | .ktbinvSeq _ => true
  | .ktbinvAll => true
  | .flpop _ => true
  | .flpush _ _ => true
  | .ssld _ _ _ => true
  | .ssst _ _ _ _ => true
  | .ssnap _ _ => true
  | .ssroll _ _ => true
  | .ssfork _ _ _ => true
  | .ssdrop _ _ => true
  | .add _ _ _ => true
  | .sub _ _ _ => true
  | .and _ _ _ => true
  | .or _ _ _ => true
  | .xor _ _ _ => true
  | .shl _ _ _ => true
  | .shr _ _ _ => true
  | .sar _ _ _ => true
  | .slt _ _ _ => true
  | .sltu _ _ _ => true
  | .min _ _ _ => true
  | .max _ _ _ => true
  | .minu _ _ _ => true
  | .maxu _ _ _ => true
  | .clz _ _ => true
  | .popc _ _ => true
  | .andn _ _ _ => true
  | .addi _ _ _ => true
  | .andi _ _ _ => true
  | .ori _ _ _ => true
  | .xori _ _ _ => true
  | .shli _ _ _ => true
  | .shri _ _ _ => true
  | .sari _ _ _ => true
  | .slti _ _ _ => true
  | .sltiu _ _ _ => true
  | .mul _ _ _ => true
  | .mulhs _ _ _ => true
  | .mulhu _ _ _ => true
  | .mulhm _ _ _ => true
  | .mul32s _ _ _ => true
  | .divs _ _ _ => true
  | .divu _ _ _ => true
  | .rems _ _ _ => true
  | .remu _ _ _ => true
  | .li _ _ => true
  | .lis _ _ => true
  | .fadd _ _ _ _ => true
  | .fsub _ _ _ _ => true
  | .fmul _ _ _ _ => true
  | .fdiv _ _ _ _ => true
  | .fsqrt _ _ _ => true
  | .fmin _ _ _ => true
  | .fmax _ _ _ => true
  | .fabs _ _ => true
  | .fneg _ _ => true
  | .fmadd _ _ _ _ => true
  | .fmsub _ _ _ _ => true
  | .fnmadd _ _ _ _ => true
  | .fnmsub _ _ _ _ => true
  | .fcmp _ _ _ _ => true
  | .fcvtF32L _ _ _ _ => true
  | .fcvtF32Lu _ _ _ _ => true
  | .fcvtLF32 _ _ _ => true
  | .fcvtLuF32 _ _ _ => true
  | .fcvtWF32 _ _ _ => true
  | .fcvtBf16F32 _ _ _ _ => true
  | .fcvtF32Bf16 _ _ => true
  | .vadd _ _ _ _ => true
  | .vsub _ _ _ _ => true
  | .vadds _ _ _ _ => true
  | .vsubs _ _ _ _ => true
  | .vmul _ _ _ _ => true
  | .vmulh _ _ _ _ => true
  | .vmin _ _ _ _ => true
  | .vmax _ _ _ _ => true
  | .vand _ _ _ _ => true
  | .vor _ _ _ _ => true
  | .vxor _ _ _ _ => true
  | .vshl _ _ _ _ => true
  | .vshr _ _ _ _ => true
  | .vsar _ _ _ _ => true
  | .vabs _ _ _ => true
  | .vfadd _ _ _ _ => true
  | .vfsub _ _ _ _ => true
  | .vfmul _ _ _ _ => true
  | .vfdiv _ _ _ _ => true
  | .vfsqrt _ _ _ => true
  | .vfmin _ _ _ _ => true
  | .vfmax _ _ _ _ => true
  | .vfabs _ _ _ => true
  | .vfneg _ _ _ => true
  | .vfmadd _ _ _ _ => true
  | .vfmsub _ _ _ _ => true
  | .vfnmadd _ _ _ _ => true
  | .vfnmsub _ _ _ _ => true
  | .vcmp _ _ _ _ _ => true
  | .qand _ _ _ => true
  | .qor _ _ _ => true
  | .qxor _ _ _ => true
  | .qandn _ _ _ => true
  | .qsetx _ _ => true
  | .qgetx _ _ => true
  | .vsel _ _ _ _ _ => true
  | .vbcastX _ _ _ => true
  | .vbcastLane _ _ _ _ => true
  | .vperm _ _ _ _ => true
  | .vexp2 _ _ _ => true
  | .vrcp _ _ _ => true
  | .vrsq _ _ _ => true
  | .vredAdd _ _ _ _ => true
  | .vredMax _ _ _ _ => true
  | .vredMin _ _ _ _ => true
  | .vredMaxi _ _ _ _ => true
  | .vxtr _ _ _ _ => true
  | .vpopq _ _ _ => true
  | .vsumkAcc _ _ _ => true
  | .vsumkScale _ _ _ => true
  | .vsumkFold _ _ => true
  | .vsumkFin _ _ => true
  | .vscan _ _ _ _ _ _ => true
  | .vhad _ _ _ _ => true
  | .vcvt _ _ _ _ _ _ => true
  | .mzero _ _ => true
  | .mma _ _ _ _ => true
  | .mmag _ _ _ _ => true
  | .mprom _ => true
  | .mrdW _ _ _ => true
  | .mrdF32 _ _ _ _ _ => true
  | .mrdBf16 _ _ _ _ _ => true
  | .mrdRaw _ _ _ => true
  | .mrdStat _ _ => true
  | .mst _ _ _ _ _ _ => true
  | .mscl _ _ _ => true
  | .seedx _ _ _ => true
  | .seedfit _ _ _ _ => true
  | .illegalInstruction _ _ => false
  | .unknownCommand _ => false
  | .badPacket _ => false
  | .powerLoss => false

end Sys2Proof
end

