-- ==== Sys2Proof/Decode.lean ====
section
/-!
DEFINITION. Decoding and encoding of instruction words (spec/07, and the field tables of spec/08 to spec/11).
A word is read as a number; its fields are quotients and remainders by powers of two, so that decoding and encoding are
plain arithmetic. Decoding is total: every word gives an instruction or one of the four reasons of R199.
-/
namespace Sys2Proof

/-- Bits [hi:lo] of a word (`field` of Table 7-6). -/
def fld (w hi lo : Nat) : Nat := w / 2 ^ lo % 2 ^ (hi - lo + 1)

/-- Bits [hi:lo] of a word as the bit vector an instruction carries. -/
def bits {n : Nat} (w hi lo : Nat) : BitVec n := BitVec.ofNat n (fld w hi lo)

/-- What the group code and W of a word say (R189): `code` is bits [31:30]. -/
structure Header where
  code : BitVec 2
  w : Bool
  deriving DecidableEq, Repr

/-- The reason SYS.TVAL[55:52] holds for an illegal word (Table 7-5): 0 opcode, 1 fn or fn9, 2 reserved field,
3 reserved value. -/
abbrev Reason := Nat

/-- One row of a class map: the reserved fields must be zero (reason 2), then the remaining fields must hold admitted
values (reason 3; `extra` is a field whose non-zero value the spec makes reason 3). A VCVT with .sat and an integer
destination is reason 2 (R276), and so is a non-zero mode of a form without one, which `zs` lists. -/
def row (zs : List Nat) (extra : Nat) (i : Instr) : Except Reason Instr :=
  if zs.any (· != 0) then .error 2
  else match i with
    | .vcvt _ _ k _ s _ =>
      if s == 1#1 && cvtDest k && cvtInt k then .error 2 else if i.wf then .ok i else .error 3
    | _ => if extra = 0 && i.wf then .ok i else .error 3

/-- The C-class map, Table 7-3. -/
def decodeC (w : Nat) : Except Reason Instr :=
  match fld w 28 22 with
  | 0x00 => row [fld w 21 0] 0 (.nop)
  | 0x01 => row [fld w 21 0] 0 (.endFiring)
  | 0x02 => row [fld w 11 7, fld w 21 17] 0 (.trap (bits w 16 12) (bits w 6 6) (bits w 5 0))
  | 0x03 => match fld w 1 0 with
    | 0 => row [fld w 21 2] 0 (.tretRetry)
    | 1 => row [fld w 21 2] 0 (.tretNext)
    | 2 => row [fld w 21 2] 0 (.tretAbort)
    | _ => .error 1
  | 0x04 => row [fld w 11 7, fld w 21 17] 0 (.snap (bits w 16 12) (bits w 6 0))
  | 0x05 => row [fld w 16 12] 0 (.sysrd (bits w 21 17) (bits w 11 0))
  | 0x06 => row [fld w 16 12] 0 (.syswr (bits w 21 17) (bits w 11 0))
  | 0x08 => row [] 0 (.beq (bits w 21 17) (bits w 16 12) (bits w 11 0))
  | 0x09 => row [] 0 (.bne (bits w 21 17) (bits w 16 12) (bits w 11 0))
  | 0x0A => row [] 0 (.blt (bits w 21 17) (bits w 16 12) (bits w 11 0))
  | 0x0B => row [] 0 (.bge (bits w 21 17) (bits w 16 12) (bits w 11 0))
  | 0x0C => row [] 0 (.bltu (bits w 21 17) (bits w 16 12) (bits w 11 0))
  | 0x0D => row [] 0 (.bgeu (bits w 21 17) (bits w 16 12) (bits w 11 0))
  | 0x0E => row [] 0 (.jal (bits w 21 0))
  | 0x0F => row [] 0 (.jalr (bits w 21 17) (bits w 16 12) (bits w 11 0))
  | 0x10 => row [fld w 21 17] 0 (.loop (bits w 16 12) (bits w 11 0))
  | 0x11 => row [] 0 (.ldch (bits w 21 17) (bits w 16 12) (bits w 11 0))
  | 0x12 => row [] 0 (.ldB (bits w 21 17) (bits w 16 12) (bits w 11 0))
  | 0x13 => row [] 0 (.ldH (bits w 21 17) (bits w 16 12) (bits w 11 0))
  | 0x14 => row [] 0 (.ldW (bits w 21 17) (bits w 16 12) (bits w 11 0))
  | 0x15 => row [] 0 (.ldD (bits w 21 17) (bits w 16 12) (bits w 11 0))
  | 0x16 => row [] 0 (.lduB (bits w 21 17) (bits w 16 12) (bits w 11 0))
  | 0x17 => row [] 0 (.lduH (bits w 21 17) (bits w 16 12) (bits w 11 0))
  | 0x18 => row [] 0 (.lduW (bits w 21 17) (bits w 16 12) (bits w 11 0))
  | 0x19 => row [] 0 (.ldfF32 (bits w 21 17) (bits w 16 12) (bits w 11 0))
  | 0x1A => row [] 0 (.ldfBf16 (bits w 21 17) (bits w 16 12) (bits w 11 0))
  | 0x1B => row [] 0 (.stB (bits w 21 17) (bits w 16 12) (bits w 11 0))
  | 0x1C => row [] 0 (.stH (bits w 21 17) (bits w 16 12) (bits w 11 0))
  | 0x1D => row [] 0 (.stW (bits w 21 17) (bits w 16 12) (bits w 11 0))
  | 0x1E => row [] 0 (.stD (bits w 21 17) (bits w 16 12) (bits w 11 0))
  | 0x1F => row [] 0 (.stfF32 (bits w 21 17) (bits w 16 12) (bits w 11 0))
  | 0x20 => row [] 0 (.stfBf16 (bits w 21 17) (bits w 16 12) (bits w 11 0))
  | 0x21 => row [] 0 (.vld (bits w 21 17) (bits w 16 12) (bits w 11 7) (bits w 6 4) (bits w 3 0))
  | 0x22 => row [] 0 (.vst (bits w 21 17) (bits w 16 12) (bits w 11 7) (bits w 6 4) (bits w 3 0))
  | 0x23 => row [] 0 (.vlds (bits w 21 17) (bits w 16 12) (bits w 11 7) (bits w 6 4) (bits w 3 0))
  | 0x24 => row [] 0 (.vsts (bits w 21 17) (bits w 16 12) (bits w 11 7) (bits w 6 4) (bits w 3 0))
  | 0x25 => row [] 0 (.vgath (bits w 21 17) (bits w 16 12) (bits w 11 7) (bits w 6 4) (bits w 3 0))
  | 0x26 => row [] 0 (.vscat (bits w 21 17) (bits w 16 12) (bits w 11 7) (bits w 6 4) (bits w 3 0))
  | 0x27 => match fld w 2 0 with
    | 0 => row [] 0 (.amoAdd (bits w 21 17) (bits w 16 12) (bits w 11 7) (bits w 6 3))
    | 1 => row [] 0 (.amoAnd (bits w 21 17) (bits w 16 12) (bits w 11 7) (bits w 6 3))
    | 2 => row [] 0 (.amoOr (bits w 21 17) (bits w 16 12) (bits w 11 7) (bits w 6 3))
    | 3 => row [] 0 (.amoXor (bits w 21 17) (bits w 16 12) (bits w 11 7) (bits w 6 3))
    | 4 => row [] 0 (.amoMin (bits w 21 17) (bits w 16 12) (bits w 11 7) (bits w 6 3))
    | 5 => row [] 0 (.amoMax (bits w 21 17) (bits w 16 12) (bits w 11 7) (bits w 6 3))
    | 6 => row [] 0 (.amoSwap (bits w 21 17) (bits w 16 12) (bits w 11 7) (bits w 6 3))
    | 7 => row [] 0 (.amoCas (bits w 21 17) (bits w 16 12) (bits w 11 7) (bits w 6 3))
    | _ => .error 1
  | 0x28 => row [fld w 21 6] 0 (.fence (bits w 5 5) (bits w 4 4) (bits w 3 3) (bits w 2 0))
  | 0x29 => row [fld w 21 3] 0 (.lfence (bits w 2 0))
  | 0x2A => match fld w 6 0 with
    | 0 => row [fld w 11 7] 0 (.acvtOff (bits w 21 17) (bits w 16 12))
    | 1 => row [fld w 11 7] 0 (.acvtG (bits w 21 17) (bits w 16 12))
    | 2 => row [fld w 11 7] 0 (.acvtL (bits w 21 17) (bits w 16 12))
    | 3 => row [fld w 11 7] 0 (.acvtC (bits w 21 17) (bits w 16 12))
    | 4 => row [fld w 11 7] 0 (.acvtLc (bits w 21 17) (bits w 16 12))
    | 5 => row [fld w 11 7] 0 (.acvtCl (bits w 21 17) (bits w 16 12))
    | _ => .error 1
  | 0x2B => row [fld w 11 0] 0 (.atest (bits w 21 17) (bits w 16 12))
  | 0x30 => row [fld w 16 7] 0 (.recv (bits w 21 17) (bits w 6 0))
  | 0x31 => row [fld w 16 7] 0 (.send (bits w 21 17) (bits w 6 0))
  | 0x32 => row [fld w 16 11] 0 (.peek (bits w 21 17) (bits w 10 7) (bits w 6 0))
  | 0x33 => row [fld w 16 7] 0 (.chst (bits w 21 17) (bits w 6 0))
  | 0x34 => row [fld w 21 5] 0 (.bella (bits w 4 0))
  | 0x35 => row [fld w 16 5] 0 (.bellw (bits w 21 17) (bits w 4 0))
  | 0x36 => row [fld w 16 5] 0 (.bellt (bits w 21 17) (bits w 4 0))
  | 0x37 => row [fld w 6 4] 0 (.pbarr (bits w 21 17) (bits w 16 12) (bits w 11 7) (bits w 3 0))
  | 0x38 => row [fld w 6 4] 0 (.pbwait (bits w 21 17) (bits w 16 12) (bits w 11 7) (bits w 3 0))
  | 0x39 => row [] 0 (.mwait (bits w 21 17) (bits w 16 12) (bits w 11 7) (bits w 6 5) (bits w 4 4) (bits w 3 0))
  | 0x40 => match fld w 0 0 with
    | 0 => row [fld w 6 4] 0 (.cpy (bits w 21 17) (bits w 16 12) (bits w 11 7) (bits w 3 1))
    | 1 => row [fld w 6 4] 0 (.cpyS (bits w 21 17) (bits w 16 12) (bits w 11 7) (bits w 3 1))
    | _ => .error 1
  | 0x41 => match fld w 4 4 with
    | 0 => row [fld w 11 5, fld w 21 17] 0 (.ctarm (bits w 16 12) (bits w 3 0))
    | 1 => row [fld w 21 5] 0 (.ctarmOff (bits w 3 0))
    | _ => .error 1
  | 0x42 => row [fld w 11 0] 0 (.lswap (bits w 21 17) (bits w 16 12))
  | 0x43 => row [fld w 6 3] 0 (.kvapp (bits w 21 17) (bits w 16 12) (bits w 11 7) (bits w 2 0))
  | 0x44 => row [fld w 6 0, fld w 21 17] 0 (.ktbfill (bits w 16 12) (bits w 11 7))
  | 0x45 => match fld w 1 0 with
    | 0 => row [fld w 11 2, fld w 21 17] 0 (.ktbinvOne (bits w 16 12))
    | 1 => row [fld w 11 2, fld w 21 17] 0 (.ktbinvSeq (bits w 16 12))
    | 2 => row [fld w 21 2] 0 (.ktbinvAll)
    | _ => .error 1
  | 0x46 => row [fld w 16 0] 0 (.flpop (bits w 21 17))
  | 0x47 => row [fld w 11 0] 0 (.flpush (bits w 21 17) (bits w 16 12))
  | 0x48 => row [fld w 6 0] 0 (.ssld (bits w 21 17) (bits w 16 12) (bits w 11 7))
  | 0x49 => row [fld w 6 1] 0 (.ssst (bits w 21 17) (bits w 16 12) (bits w 11 7) (bits w 0 0))
  | 0x4A => row [fld w 6 0, fld w 16 12] 0 (.ssnap (bits w 21 17) (bits w 11 7))
  | 0x4B => row [fld w 6 0, fld w 16 12] 0 (.ssroll (bits w 21 17) (bits w 11 7))
  | 0x4C => row [fld w 6 0] 0 (.ssfork (bits w 21 17) (bits w 16 12) (bits w 11 7))
  | 0x4D => row [fld w 6 0, fld w 16 12] 0 (.ssdrop (bits w 21 17) (bits w 11 7))
  | _ => .error 0

/-- The A-class map, Table 7-4. -/
def decodeA (w : Nat) : Except Reason Instr :=
  match fld w 28 22 with
  | 0x00 => match fld w 6 0 with
    | 0 => row [] 0 (.add (bits w 21 17) (bits w 16 12) (bits w 11 7))
    | 1 => row [] 0 (.sub (bits w 21 17) (bits w 16 12) (bits w 11 7))
    | 2 => row [] 0 (.and (bits w 21 17) (bits w 16 12) (bits w 11 7))
    | 3 => row [] 0 (.or (bits w 21 17) (bits w 16 12) (bits w 11 7))
    | 4 => row [] 0 (.xor (bits w 21 17) (bits w 16 12) (bits w 11 7))
    | 5 => row [] 0 (.shl (bits w 21 17) (bits w 16 12) (bits w 11 7))
    | 6 => row [] 0 (.shr (bits w 21 17) (bits w 16 12) (bits w 11 7))
    | 7 => row [] 0 (.sar (bits w 21 17) (bits w 16 12) (bits w 11 7))
    | 8 => row [] 0 (.slt (bits w 21 17) (bits w 16 12) (bits w 11 7))
    | 9 => row [] 0 (.sltu (bits w 21 17) (bits w 16 12) (bits w 11 7))
    | 10 => row [] 0 (.min (bits w 21 17) (bits w 16 12) (bits w 11 7))
    | 11 => row [] 0 (.max (bits w 21 17) (bits w 16 12) (bits w 11 7))
    | 12 => row [] 0 (.minu (bits w 21 17) (bits w 16 12) (bits w 11 7))
    | 13 => row [] 0 (.maxu (bits w 21 17) (bits w 16 12) (bits w 11 7))
    | 14 => row [fld w 11 7] 0 (.clz (bits w 21 17) (bits w 16 12))
    | 15 => row [fld w 11 7] 0 (.popc (bits w 21 17) (bits w 16 12))
    | 16 => row [] 0 (.andn (bits w 21 17) (bits w 16 12) (bits w 11 7))
    | _ => .error 1
  | 0x01 => row [] 0 (.addi (bits w 21 17) (bits w 16 12) (bits w 11 0))
  | 0x02 => row [] 0 (.andi (bits w 21 17) (bits w 16 12) (bits w 11 0))
  | 0x03 => row [] 0 (.ori (bits w 21 17) (bits w 16 12) (bits w 11 0))
  | 0x04 => row [] 0 (.xori (bits w 21 17) (bits w 16 12) (bits w 11 0))
  | 0x05 => row [fld w 11 6] 0 (.shli (bits w 21 17) (bits w 16 12) (bits w 5 0))
  | 0x06 => row [fld w 11 6] 0 (.shri (bits w 21 17) (bits w 16 12) (bits w 5 0))
  | 0x07 => row [fld w 11 6] 0 (.sari (bits w 21 17) (bits w 16 12) (bits w 5 0))
  | 0x08 => row [] 0 (.slti (bits w 21 17) (bits w 16 12) (bits w 11 0))
  | 0x09 => row [] 0 (.sltiu (bits w 21 17) (bits w 16 12) (bits w 11 0))
  | 0x0A => match fld w 6 0 with
    | 0 => row [] 0 (.mul (bits w 21 17) (bits w 16 12) (bits w 11 7))
    | 1 => row [] 0 (.mulhs (bits w 21 17) (bits w 16 12) (bits w 11 7))
    | 2 => row [] 0 (.mulhu (bits w 21 17) (bits w 16 12) (bits w 11 7))
    | 3 => row [] 0 (.mulhm (bits w 21 17) (bits w 16 12) (bits w 11 7))
    | 4 => row [] 0 (.mul32s (bits w 21 17) (bits w 16 12) (bits w 11 7))
    | _ => .error 1
  | 0x0B => match fld w 6 0 with
    | 0 => row [] 0 (.divs (bits w 21 17) (bits w 16 12) (bits w 11 7))
    | 1 => row [] 0 (.divu (bits w 21 17) (bits w 16 12) (bits w 11 7))
    | 2 => row [] 0 (.rems (bits w 21 17) (bits w 16 12) (bits w 11 7))
    | 3 => row [] 0 (.remu (bits w 21 17) (bits w 16 12) (bits w 11 7))
    | _ => .error 1
  | 0x0C => row [] 0 (.li (bits w 21 17) (bits w 16 0))
  | 0x0D => row [] 0 (.lis (bits w 21 17) (bits w 16 0))
  | 0x10 => match fld w 3 0 with
    | 0 => row [] 0 (.fadd (bits w 21 17) (bits w 16 12) (bits w 11 7) (bits w 6 4))
    | 1 => row [] 0 (.fsub (bits w 21 17) (bits w 16 12) (bits w 11 7) (bits w 6 4))
    | 2 => row [] 0 (.fmul (bits w 21 17) (bits w 16 12) (bits w 11 7) (bits w 6 4))
    | 3 => row [] 0 (.fdiv (bits w 21 17) (bits w 16 12) (bits w 11 7) (bits w 6 4))
    | 4 => row [fld w 11 7] 0 (.fsqrt (bits w 21 17) (bits w 16 12) (bits w 6 4))
    | 5 => row [fld w 6 4] 0 (.fmin (bits w 21 17) (bits w 16 12) (bits w 11 7))
    | 6 => row [fld w 6 4] 0 (.fmax (bits w 21 17) (bits w 16 12) (bits w 11 7))
    | 7 => row [fld w 11 4] 0 (.fabs (bits w 21 17) (bits w 16 12))
    | 8 => row [fld w 11 4] 0 (.fneg (bits w 21 17) (bits w 16 12))
    | _ => .error 1
  | 0x11 => match fld w 1 0 with
    | 0 => row [fld w 3 2] 0 (.fmadd (bits w 21 17) (bits w 16 12) (bits w 11 7) (bits w 6 4))
    | 1 => row [fld w 3 2] 0 (.fmsub (bits w 21 17) (bits w 16 12) (bits w 11 7) (bits w 6 4))
    | 2 => row [fld w 3 2] 0 (.fnmadd (bits w 21 17) (bits w 16 12) (bits w 11 7) (bits w 6 4))
    | 3 => row [fld w 3 2] 0 (.fnmsub (bits w 21 17) (bits w 16 12) (bits w 11 7) (bits w 6 4))
    | _ => .error 1
  | 0x12 => row [fld w 6 3] 0 (.fcmp (bits w 21 17) (bits w 16 12) (bits w 11 7) (bits w 2 0))
  | 0x13 => match fld w 2 0 with
    | 0 => row [fld w 11 7] 0 (.fcvtF32L (bits w 21 17) (bits w 16 12) (bits w 6 4) (bits w 3 3))
    | 1 => row [fld w 11 7] 0 (.fcvtF32Lu (bits w 21 17) (bits w 16 12) (bits w 6 4) (bits w 3 3))
    | 2 => row [fld w 11 7] (fld w 3 3) (.fcvtLF32 (bits w 21 17) (bits w 16 12) (bits w 6 4))
    | 3 => row [fld w 11 7] (fld w 3 3) (.fcvtLuF32 (bits w 21 17) (bits w 16 12) (bits w 6 4))
    | 4 => row [fld w 11 7] (fld w 3 3) (.fcvtWF32 (bits w 21 17) (bits w 16 12) (bits w 6 4))
    | 5 => row [fld w 11 7] 0 (.fcvtBf16F32 (bits w 21 17) (bits w 16 12) (bits w 6 4) (bits w 3 3))
    | 6 => row [fld w 11 4] (fld w 3 3) (.fcvtF32Bf16 (bits w 21 17) (bits w 16 12))
    | _ => .error 1
  | 0x20 => match fld w 3 0 with
    | 0 => row [] 0 (.vadd (bits w 21 17) (bits w 16 12) (bits w 11 7) (bits w 6 4))
    | 1 => row [] 0 (.vsub (bits w 21 17) (bits w 16 12) (bits w 11 7) (bits w 6 4))
    | 2 => row [] 0 (.vadds (bits w 21 17) (bits w 16 12) (bits w 11 7) (bits w 6 4))
    | 3 => row [] 0 (.vsubs (bits w 21 17) (bits w 16 12) (bits w 11 7) (bits w 6 4))
    | 4 => row [] 0 (.vmul (bits w 21 17) (bits w 16 12) (bits w 11 7) (bits w 6 4))
    | 5 => row [] 0 (.vmulh (bits w 21 17) (bits w 16 12) (bits w 11 7) (bits w 6 4))
    | 6 => row [] 0 (.vmin (bits w 21 17) (bits w 16 12) (bits w 11 7) (bits w 6 4))
    | 7 => row [] 0 (.vmax (bits w 21 17) (bits w 16 12) (bits w 11 7) (bits w 6 4))
    | 8 => row [] 0 (.vand (bits w 21 17) (bits w 16 12) (bits w 11 7) (bits w 6 4))
    | 9 => row [] 0 (.vor (bits w 21 17) (bits w 16 12) (bits w 11 7) (bits w 6 4))
    | 10 => row [] 0 (.vxor (bits w 21 17) (bits w 16 12) (bits w 11 7) (bits w 6 4))
    | 11 => row [] 0 (.vshl (bits w 21 17) (bits w 16 12) (bits w 11 7) (bits w 6 4))
    | 12 => row [] 0 (.vshr (bits w 21 17) (bits w 16 12) (bits w 11 7) (bits w 6 4))
    | 13 => row [] 0 (.vsar (bits w 21 17) (bits w 16 12) (bits w 11 7) (bits w 6 4))
    | 14 => row [fld w 11 7] 0 (.vabs (bits w 21 17) (bits w 16 12) (bits w 6 4))
    | _ => .error 1
  | 0x21 => match fld w 3 0 with
    | 0 => row [] 0 (.vfadd (bits w 21 17) (bits w 16 12) (bits w 11 7) (bits w 6 4))
    | 1 => row [] 0 (.vfsub (bits w 21 17) (bits w 16 12) (bits w 11 7) (bits w 6 4))
    | 2 => row [] 0 (.vfmul (bits w 21 17) (bits w 16 12) (bits w 11 7) (bits w 6 4))
    | 3 => row [] 0 (.vfdiv (bits w 21 17) (bits w 16 12) (bits w 11 7) (bits w 6 4))
    | 4 => row [fld w 11 7] 0 (.vfsqrt (bits w 21 17) (bits w 16 12) (bits w 6 4))
    | 5 => row [] 0 (.vfmin (bits w 21 17) (bits w 16 12) (bits w 11 7) (bits w 6 4))
    | 6 => row [] 0 (.vfmax (bits w 21 17) (bits w 16 12) (bits w 11 7) (bits w 6 4))
    | 7 => row [fld w 11 7] 0 (.vfabs (bits w 21 17) (bits w 16 12) (bits w 6 4))
    | 8 => row [fld w 11 7] 0 (.vfneg (bits w 21 17) (bits w 16 12) (bits w 6 4))
    | _ => .error 1
  | 0x22 => match fld w 1 0 with
    | 0 => row [fld w 3 2] 0 (.vfmadd (bits w 21 17) (bits w 16 12) (bits w 11 7) (bits w 6 4))
    | 1 => row [fld w 3 2] 0 (.vfmsub (bits w 21 17) (bits w 16 12) (bits w 11 7) (bits w 6 4))
    | 2 => row [fld w 3 2] 0 (.vfnmadd (bits w 21 17) (bits w 16 12) (bits w 11 7) (bits w 6 4))
    | 3 => row [fld w 3 2] 0 (.vfnmsub (bits w 21 17) (bits w 16 12) (bits w 11 7) (bits w 6 4))
    | _ => .error 1
  | 0x23 => match fld w 3 0 with
    | 0 | 1 | 2 | 3 | 4 | 5 | 6 => row [fld w 21 20] 0 (.vcmp (bits w 19 17) (bits w 16 12) (bits w 11 7) (bits w 6 4) (bits w 2 0))
    | 8 => row [fld w 6 4, fld w 11 10, fld w 16 15, fld w 21 20] 0 (.qand (bits w 19 17) (bits w 14 12) (bits w 9 7))
    | 9 => row [fld w 6 4, fld w 11 10, fld w 16 15, fld w 21 20] 0 (.qor (bits w 19 17) (bits w 14 12) (bits w 9 7))
    | 10 => row [fld w 6 4, fld w 11 10, fld w 16 15, fld w 21 20] 0 (.qxor (bits w 19 17) (bits w 14 12) (bits w 9 7))
    | 11 => row [fld w 6 4, fld w 11 10, fld w 16 15, fld w 21 20] 0 (.qandn (bits w 19 17) (bits w 14 12) (bits w 9 7))
    | 12 => row [fld w 11 4, fld w 21 20] 0 (.qsetx (bits w 19 17) (bits w 16 12))
    | 13 => row [fld w 11 4, fld w 16 15] 0 (.qgetx (bits w 21 17) (bits w 14 12))
    | _ => .error 1
  | 0x24 => row [fld w 3 3] 0 (.vsel (bits w 21 17) (bits w 16 12) (bits w 11 7) (bits w 6 4) (bits w 2 0))
  | 0x25 => match fld w 0 0 with
    | 0 => row [fld w 3 1, fld w 11 7] 0 (.vbcastX (bits w 21 17) (bits w 16 12) (bits w 6 4))
    | 1 => row [fld w 3 1] 0 (.vbcastLane (bits w 21 17) (bits w 16 12) (bits w 11 7) (bits w 6 4))
    | _ => .error 1
  | 0x26 => row [fld w 3 0] 0 (.vperm (bits w 21 17) (bits w 16 12) (bits w 11 7) (bits w 6 4))
  | 0x27 => match fld w 1 0 with
    | 0 => row [fld w 3 2, fld w 11 7] 0 (.vexp2 (bits w 21 17) (bits w 16 12) (bits w 6 4))
    | 1 => row [fld w 3 2, fld w 11 7] 0 (.vrcp (bits w 21 17) (bits w 16 12) (bits w 6 4))
    | 2 => row [fld w 3 2, fld w 11 7] 0 (.vrsq (bits w 21 17) (bits w 16 12) (bits w 6 4))
    | _ => .error 1
  | 0x28 => match fld w 3 0 with
    | 0 => row [fld w 11 10] 0 (.vredAdd (bits w 21 17) (bits w 16 12) (bits w 9 7) (bits w 6 4))
    | 1 => row [fld w 11 10] 0 (.vredMax (bits w 21 17) (bits w 16 12) (bits w 9 7) (bits w 6 4))
    | 2 => row [fld w 11 10] 0 (.vredMin (bits w 21 17) (bits w 16 12) (bits w 9 7) (bits w 6 4))
    | 3 => row [fld w 11 10] 0 (.vredMaxi (bits w 21 17) (bits w 16 12) (bits w 9 7) (bits w 6 4))
    | 4 => row [] 0 (.vxtr (bits w 21 17) (bits w 16 12) (bits w 11 7) (bits w 6 4))
    | 5 => row [fld w 16 10] 0 (.vpopq (bits w 21 17) (bits w 9 7) (bits w 6 4))
    | _ => .error 1
  | 0x29 => match fld w 1 0 with
    | 0 => row [fld w 6 2, fld w 11 10] 0 (.vsumkAcc (bits w 21 17) (bits w 16 12) (bits w 9 7))
    | 1 => row [fld w 6 2, fld w 11 10] 0 (.vsumkScale (bits w 21 17) (bits w 16 12) (bits w 9 7))
    | 2 => row [fld w 6 2, fld w 16 10] 0 (.vsumkFold (bits w 21 17) (bits w 9 7))
    | 3 => row [fld w 6 2, fld w 16 10] 0 (.vsumkFin (bits w 21 17) (bits w 9 7))
    | _ => .error 1
  | 0x2A => if fld w 1 0 = 3 then .error 1 else row [fld w 3 3, fld w 11 10] 0 (.vscan (bits w 21 17) (bits w 16 12) (bits w 9 7) (bits w 6 4) (bits w 2 2) (bits w 1 0))
  | 0x2B => row [fld w 3 0] 0 (.vhad (bits w 21 17) (bits w 16 12) (bits w 11 7) (bits w 6 4))
  | 0x2C => row [] 0 (.vcvt (bits w 21 17) (bits w 16 12) (bits w 11 7) (bits w 6 4) (bits w 3 3) (bits w 2 0))
  | 0x30 => row [fld w 18 1] 0 (.mzero (bits w 21 19) (bits w 0 0))
  | 0x31 => row [fld w 8 2] 0 (.mma (bits w 21 19) (bits w 18 14) (bits w 13 9) (bits w 1 0))
  | 0x32 => row [fld w 8 2] 0 (.mmag (bits w 21 19) (bits w 18 14) (bits w 13 9) (bits w 1 0))
  | 0x33 => row [fld w 18 0] 0 (.mprom (bits w 21 19))
  | 0x34 => match fld w 2 0 with
    | 0 => row [fld w 8 3] 0 (.mrdW (bits w 21 19) (bits w 18 14) (bits w 13 9))
    | 1 => row [fld w 8 7] 0 (.mrdF32 (bits w 21 19) (bits w 18 14) (bits w 13 9) (bits w 6 6) (bits w 5 3))
    | 2 => row [fld w 8 7] 0 (.mrdBf16 (bits w 21 19) (bits w 18 14) (bits w 13 9) (bits w 6 6) (bits w 5 3))
    | 3 => row [fld w 8 3] 0 (.mrdRaw (bits w 21 19) (bits w 18 14) (bits w 13 9))
    | 4 => row [fld w 13 3] 0 (.mrdStat (bits w 21 19) (bits w 18 14))
    | _ => .error 1
  | 0x35 => row [fld w 8 5] 0 (.mst (bits w 21 19) (bits w 18 14) (bits w 13 9) (bits w 4 4) (bits w 3 3) (bits w 2 0))
  | 0x36 => row [fld w 13 1] 0 (.mscl (bits w 21 19) (bits w 18 14) (bits w 0 0))
  | 0x38 => row [fld w 6 0] 0 (.seedx (bits w 21 17) (bits w 16 12) (bits w 11 7))
  | 0x39 => row [fld w 6 5] 0 (.seedfit (bits w 21 17) (bits w 16 12) (bits w 11 7) (bits w 4 0))
  | _ => .error 0

/-- One word: bit 31 selects the class (Table 7-1). -/
def decodeNat (w : Nat) : Except Reason (Header × Instr) :=
  match (if fld w 31 31 = 0 then decodeC w else decodeA w) with
  | .ok i => .ok ({ code := bits w 31 30, w := fld w 29 29 == 1 }, i)
  | .error r => .error r

/-- The decoder on 32-bit words. -/
def decodeWord (w : BitVec 32) : Except Reason (Header × Instr) := decodeNat w.toNat

/-- The class of an encoded instruction: true for the A class (Tables 7-3, 7-4). -/
def Instr.isA : Instr → Bool
  | .add _ _ _ => true
  | .sub _ _ _ => true
  | .and _ _ _ => true
  | .or _ _ _ => true
  | .xor _ _ _ => true
  | .shl _ _ _ => true
  | .shr _ _ _ => true
  | .sar _ _ _ => true
  | .slt _ _ _ => true
  | .sltu _ _ _ => true
  | .min _ _ _ => true
  | .max _ _ _ => true
  | .minu _ _ _ => true
  | .maxu _ _ _ => true
  | .clz _ _ => true
  | .popc _ _ => true
  | .andn _ _ _ => true
  | .addi _ _ _ => true
  | .andi _ _ _ => true
  | .ori _ _ _ => true
  | .xori _ _ _ => true
  | .shli _ _ _ => true
  | .shri _ _ _ => true
  | .sari _ _ _ => true
  | .slti _ _ _ => true
  | .sltiu _ _ _ => true
  | .mul _ _ _ => true
  | .mulhs _ _ _ => true
  | .mulhu _ _ _ => true
  | .mulhm _ _ _ => true
  | .mul32s _ _ _ => true
  | .divs _ _ _ => true
  | .divu _ _ _ => true
  | .rems _ _ _ => true
  | .remu _ _ _ => true
  | .li _ _ => true
  | .lis _ _ => true
  | .fadd _ _ _ _ => true
  | .fsub _ _ _ _ => true
  | .fmul _ _ _ _ => true
  | .fdiv _ _ _ _ => true
  | .fsqrt _ _ _ => true
  | .fmin _ _ _ => true
  | .fmax _ _ _ => true
  | .fabs _ _ => true
  | .fneg _ _ => true
  | .fmadd _ _ _ _ => true
  | .fmsub _ _ _ _ => true
  | .fnmadd _ _ _ _ => true
  | .fnmsub _ _ _ _ => true
  | .fcmp _ _ _ _ => true
  | .fcvtF32L _ _ _ _ => true
  | .fcvtF32Lu _ _ _ _ => true
  | .fcvtLF32 _ _ _ => true
  | .fcvtLuF32 _ _ _ => true
  | .fcvtWF32 _ _ _ => true
  | .fcvtBf16F32 _ _ _ _ => true
  | .fcvtF32Bf16 _ _ => true
  | .vadd _ _ _ _ => true
  | .vsub _ _ _ _ => true
  | .vadds _ _ _ _ => true
  | .vsubs _ _ _ _ => true
  | .vmul _ _ _ _ => true
  | .vmulh _ _ _ _ => true
  | .vmin _ _ _ _ => true
  | .vmax _ _ _ _ => true
  | .vand _ _ _ _ => true
  | .vor _ _ _ _ => true
  | .vxor _ _ _ _ => true
  | .vshl _ _ _ _ => true
  | .vshr _ _ _ _ => true
  | .vsar _ _ _ _ => true
  | .vabs _ _ _ => true
  | .vfadd _ _ _ _ => true
  | .vfsub _ _ _ _ => true
  | .vfmul _ _ _ _ => true
  | .vfdiv _ _ _ _ => true
  | .vfsqrt _ _ _ => true
  | .vfmin _ _ _ _ => true
  | .vfmax _ _ _ _ => true
  | .vfabs _ _ _ => true
  | .vfneg _ _ _ => true
  | .vfmadd _ _ _ _ => true
  | .vfmsub _ _ _ _ => true
  | .vfnmadd _ _ _ _ => true
  | .vfnmsub _ _ _ _ => true
  | .vcmp _ _ _ _ _ => true
  | .qand _ _ _ => true
  | .qor _ _ _ => true
  | .qxor _ _ _ => true
  | .qandn _ _ _ => true
  | .qsetx _ _ => true
  | .qgetx _ _ => true
  | .vsel _ _ _ _ _ => true
  | .vbcastX _ _ _ => true
  | .vbcastLane _ _ _ _ => true
  | .vperm _ _ _ _ => true
  | .vexp2 _ _ _ => true
  | .vrcp _ _ _ => true
  | .vrsq _ _ _ => true
  | .vredAdd _ _ _ _ => true
  | .vredMax _ _ _ _ => true
  | .vredMin _ _ _ _ => true
  | .vredMaxi _ _ _ _ => true
  | .vxtr _ _ _ _ => true
  | .vpopq _ _ _ => true
  | .vsumkAcc _ _ _ => true
  | .vsumkScale _ _ _ => true
  | .vsumkFold _ _ => true
  | .vsumkFin _ _ => true
  | .vscan _ _ _ _ _ _ => true
  | .vhad _ _ _ _ => true
  | .vcvt _ _ _ _ _ _ => true
  | .mzero _ _ => true
  | .mma _ _ _ _ => true
  | .mmag _ _ _ _ => true
  | .mprom _ => true
  | .mrdW _ _ _ => true
  | .mrdF32 _ _ _ _ _ => true
  | .mrdBf16 _ _ _ _ _ => true
  | .mrdRaw _ _ _ => true
  | .mrdStat _ _ => true
  | .mst _ _ _ _ _ _ => true
  | .mscl _ _ _ => true
  | .seedx _ _ _ => true
  | .seedfit _ _ _ _ => true
  | _ => false

/-- Bits [28:0] without W: opcode and operand fields of an instruction (0 for a step that has no encoding). -/
def Instr.operandBits : Instr → Nat
  | .nop => 0x0
  | .endFiring => 0x400000
  | .trap a p n => 0x800000 + a.toNat * 0x1000 + p.toNat * 0x40 + n.toNat
  | .tretRetry => 0xC00000
  | .tretNext => 0xC00001
  | .tretAbort => 0xC00002
  | .snap a c => 0x1000000 + a.toNat * 0x1000 + c.toNat
  | .sysrd d r => 0x1400000 + d.toNat * 0x20000 + r.toNat
  | .syswr d r => 0x1800000 + d.toNat * 0x20000 + r.toNat
  | .beq a b o => 0x2000000 + a.toNat * 0x20000 + b.toNat * 0x1000 + o.toNat
  | .bne a b o => 0x2400000 + a.toNat * 0x20000 + b.toNat * 0x1000 + o.toNat
  | .blt a b o => 0x2800000 + a.toNat * 0x20000 + b.toNat * 0x1000 + o.toNat
  | .bge a b o => 0x2C00000 + a.toNat * 0x20000 + b.toNat * 0x1000 + o.toNat
  | .bltu a b o => 0x3000000 + a.toNat * 0x20000 + b.toNat * 0x1000 + o.toNat
  | .bgeu a b o => 0x3400000 + a.toNat * 0x20000 + b.toNat * 0x1000 + o.toNat
  | .jal o => 0x3800000 + o.toNat
  | .jalr d a i => 0x3C00000 + d.toNat * 0x20000 + a.toNat * 0x1000 + i.toNat
  | .loop a i => 0x4000000 + a.toNat * 0x1000 + i.toNat
  | .ldch d a i => 0x4400000 + d.toNat * 0x20000 + a.toNat * 0x1000 + i.toNat
  | .ldB d a i => 0x4800000 + d.toNat * 0x20000 + a.toNat * 0x1000 + i.toNat
  | .ldH d a i => 0x4C00000 + d.toNat * 0x20000 + a.toNat * 0x1000 + i.toNat
  | .ldW d a i => 0x5000000 + d.toNat * 0x20000 + a.toNat * 0x1000 + i.toNat
  | .ldD d a i => 0x5400000 + d.toNat * 0x20000 + a.toNat * 0x1000 + i.toNat
  | .lduB d a i => 0x5800000 + d.toNat * 0x20000 + a.toNat * 0x1000 + i.toNat
  | .lduH d a i => 0x5C00000 + d.toNat * 0x20000 + a.toNat * 0x1000 + i.toNat
  | .lduW d a i => 0x6000000 + d.toNat * 0x20000 + a.toNat * 0x1000 + i.toNat
  | .ldfF32 d a i => 0x6400000 + d.toNat * 0x20000 + a.toNat * 0x1000 + i.toNat
  | .ldfBf16 d a i => 0x6800000 + d.toNat * 0x20000 + a.toNat * 0x1000 + i.toNat
  | .stB d a i => 0x6C00000 + d.toNat * 0x20000 + a.toNat * 0x1000 + i.toNat
  | .stH d a i => 0x7000000 + d.toNat * 0x20000 + a.toNat * 0x1000 + i.toNat
  | .stW d a i => 0x7400000 + d.toNat * 0x20000 + a.toNat * 0x1000 + i.toNat
  | .stD d a i => 0x7800000 + d.toNat * 0x20000 + a.toNat * 0x1000 + i.toNat
  | .stfF32 d a i => 0x7C00000 + d.toNat * 0x20000 + a.toNat * 0x1000 + i.toNat
  | .stfBf16 d a i => 0x8000000 + d.toNat * 0x20000 + a.toNat * 0x1000 + i.toNat
  | .vld d a b t s => 0x8400000 + d.toNat * 0x20000 + a.toNat * 0x1000 + b.toNat * 0x80 + t.toNat * 0x10 + s.toNat
  | .vst d a b t s => 0x8800000 + d.toNat * 0x20000 + a.toNat * 0x1000 + b.toNat * 0x80 + t.toNat * 0x10 + s.toNat
  | .vlds d a b t s => 0x8C00000 + d.toNat * 0x20000 + a.toNat * 0x1000 + b.toNat * 0x80 + t.toNat * 0x10 + s.toNat
  | .vsts d a b t s => 0x9000000 + d.toNat * 0x20000 + a.toNat * 0x1000 + b.toNat * 0x80 + t.toNat * 0x10 + s.toNat
  | .vgath d a b t s => 0x9400000 + d.toNat * 0x20000 + a.toNat * 0x1000 + b.toNat * 0x80 + t.toNat * 0x10 + s.toNat
  | .vscat d a b t s => 0x9800000 + d.toNat * 0x20000 + a.toNat * 0x1000 + b.toNat * 0x80 + t.toNat * 0x10 + s.toNat
  | .amoAdd d a b s => 0x9C00000 + d.toNat * 0x20000 + a.toNat * 0x1000 + b.toNat * 0x80 + s.toNat * 0x8
  | .amoAnd d a b s => 0x9C00001 + d.toNat * 0x20000 + a.toNat * 0x1000 + b.toNat * 0x80 + s.toNat * 0x8
  | .amoOr d a b s => 0x9C00002 + d.toNat * 0x20000 + a.toNat * 0x1000 + b.toNat * 0x80 + s.toNat * 0x8
  | .amoXor d a b s => 0x9C00003 + d.toNat * 0x20000 + a.toNat * 0x1000 + b.toNat * 0x80 + s.toNat * 0x8
  | .amoMin d a b s => 0x9C00004 + d.toNat * 0x20000 + a.toNat * 0x1000 + b.toNat * 0x80 + s.toNat * 0x8
  | .amoMax d a b s => 0x9C00005 + d.toNat * 0x20000 + a.toNat * 0x1000 + b.toNat * 0x80 + s.toNat * 0x8
  | .amoSwap d a b s => 0x9C00006 + d.toNat * 0x20000 + a.toNat * 0x1000 + b.toNat * 0x80 + s.toNat * 0x8
  | .amoCas d a b s => 0x9C00007 + d.toNat * 0x20000 + a.toNat * 0x1000 + b.toNat * 0x80 + s.toNat * 0x8
  | .fence e m r s => 0xA000000 + e.toNat * 0x20 + m.toNat * 0x10 + r.toNat * 0x8 + s.toNat
  | .lfence l => 0xA400000 + l.toNat
  | .acvtOff d a => 0xA800000 + d.toNat * 0x20000 + a.toNat * 0x1000
  | .acvtG d a => 0xA800001 + d.toNat * 0x20000 + a.toNat * 0x1000
  | .acvtL d a => 0xA800002 + d.toNat * 0x20000 + a.toNat * 0x1000
  | .acvtC d a => 0xA800003 + d.toNat * 0x20000 + a.toNat * 0x1000
  | .acvtLc d a => 0xA800004 + d.toNat * 0x20000 + a.toNat * 0x1000
  | .acvtCl d a => 0xA800005 + d.toNat * 0x20000 + a.toNat * 0x1000
  | .atest d a => 0xAC00000 + d.toNat * 0x20000 + a.toNat * 0x1000
  | .recv d c => 0xC000000 + d.toNat * 0x20000 + c.toNat
  | .send d c => 0xC400000 + d.toNat * 0x20000 + c.toNat
  | .peek d k c => 0xC800000 + d.toNat * 0x20000 + k.toNat * 0x80 + c.toNat
  | .chst d c => 0xCC00000 + d.toNat * 0x20000 + c.toNat
  | .bella l => 0xD000000 + l.toNat
  | .bellw d l => 0xD400000 + d.toNat * 0x20000 + l.toNat
  | .bellt d l => 0xD800000 + d.toNat * 0x20000 + l.toNat
  | .pbarr d a b s => 0xDC00000 + d.toNat * 0x20000 + a.toNat * 0x1000 + b.toNat * 0x80 + s.toNat
  | .pbwait d a b s => 0xE000000 + d.toNat * 0x20000 + a.toNat * 0x1000 + b.toNat * 0x80 + s.toNat
  | .mwait d a b c z s => 0xE400000 + d.toNat * 0x20000 + a.toNat * 0x1000 + b.toNat * 0x80 + c.toNat * 0x20 + z.toNat * 0x10 + s.toNat
  | .cpy d a b s => 0x10000000 + d.toNat * 0x20000 + a.toNat * 0x1000 + b.toNat * 0x80 + s.toNat * 0x2
  | .cpyS d a b s => 0x10000001 + d.toNat * 0x20000 + a.toNat * 0x1000 + b.toNat * 0x80 + s.toNat * 0x2
  | .ctarm a n => 0x10400000 + a.toNat * 0x1000 + n.toNat
  | .ctarmOff n => 0x10400010 + n.toNat
  | .lswap d a => 0x10800000 + d.toNat * 0x20000 + a.toNat * 0x1000
  | .kvapp d a b z => 0x10C00000 + d.toNat * 0x20000 + a.toNat * 0x1000 + b.toNat * 0x80 + z.toNat
  | .ktbfill a b => 0x11000000 + a.toNat * 0x1000 + b.toNat * 0x80
  | .ktbinvOne a => 0x11400000 + a.toNat * 0x1000
  | .ktbinvSeq a => 0x11400001 + a.toNat * 0x1000
  | .ktbinvAll => 0x11400002
  | .flpop d => 0x11800000 + d.toNat * 0x20000
  | .flpush d a => 0x11C00000 + d.toNat * 0x20000 + a.toNat * 0x1000
  | .ssld d a b => 0x12000000 + d.toNat * 0x20000 + a.toNat * 0x1000 + b.toNat * 0x80
  | .ssst d a b n => 0x12400000 + d.toNat * 0x20000 + a.toNat * 0x1000 + b.toNat * 0x80 + n.toNat
  | .ssnap d b => 0x12800000 + d.toNat * 0x20000 + b.toNat * 0x80
  | .ssroll d b => 0x12C00000 + d.toNat * 0x20000 + b.toNat * 0x80
  | .ssfork d a b => 0x13000000 + d.toNat * 0x20000 + a.toNat * 0x1000 + b.toNat * 0x80
  | .ssdrop d b => 0x13400000 + d.toNat * 0x20000 + b.toNat * 0x80
  | .add d a b => 0x0 + d.toNat * 0x20000 + a.toNat * 0x1000 + b.toNat * 0x80
  | .sub d a b => 0x1 + d.toNat * 0x20000 + a.toNat * 0x1000 + b.toNat * 0x80
  | .and d a b => 0x2 + d.toNat * 0x20000 + a.toNat * 0x1000 + b.toNat * 0x80
  | .or d a b => 0x3 + d.toNat * 0x20000 + a.toNat * 0x1000 + b.toNat * 0x80
  | .xor d a b => 0x4 + d.toNat * 0x20000 + a.toNat * 0x1000 + b.toNat * 0x80
  | .shl d a b => 0x5 + d.toNat * 0x20000 + a.toNat * 0x1000 + b.toNat * 0x80
  | .shr d a b => 0x6 + d.toNat * 0x20000 + a.toNat * 0x1000 + b.toNat * 0x80
  | .sar d a b => 0x7 + d.toNat * 0x20000 + a.toNat * 0x1000 + b.toNat * 0x80
  | .slt d a b => 0x8 + d.toNat * 0x20000 + a.toNat * 0x1000 + b.toNat * 0x80
  | .sltu d a b => 0x9 + d.toNat * 0x20000 + a.toNat * 0x1000 + b.toNat * 0x80
  | .min d a b => 0xA + d.toNat * 0x20000 + a.toNat * 0x1000 + b.toNat * 0x80
  | .max d a b => 0xB + d.toNat * 0x20000 + a.toNat * 0x1000 + b.toNat * 0x80
  | .minu d a b => 0xC + d.toNat * 0x20000 + a.toNat * 0x1000 + b.toNat * 0x80
  | .maxu d a b => 0xD + d.toNat * 0x20000 + a.toNat * 0x1000 + b.toNat * 0x80
  | .clz d a => 0xE + d.toNat * 0x20000 + a.toNat * 0x1000
  | .popc d a => 0xF + d.toNat * 0x20000 + a.toNat * 0x1000
  | .andn d a b => 0x10 + d.toNat * 0x20000 + a.toNat * 0x1000 + b.toNat * 0x80
  | .addi d a i => 0x400000 + d.toNat * 0x20000 + a.toNat * 0x1000 + i.toNat
  | .andi d a i => 0x800000 + d.toNat * 0x20000 + a.toNat * 0x1000 + i.toNat
  | .ori d a i => 0xC00000 + d.toNat * 0x20000 + a.toNat * 0x1000 + i.toNat
  | .xori d a i => 0x1000000 + d.toNat * 0x20000 + a.toNat * 0x1000 + i.toNat
  | .shli d a i => 0x1400000 + d.toNat * 0x20000 + a.toNat * 0x1000 + i.toNat
  | .shri d a i => 0x1800000 + d.toNat * 0x20000 + a.toNat * 0x1000 + i.toNat
  | .sari d a i => 0x1C00000 + d.toNat * 0x20000 + a.toNat * 0x1000 + i.toNat
  | .slti d a i => 0x2000000 + d.toNat * 0x20000 + a.toNat * 0x1000 + i.toNat
  | .sltiu d a i => 0x2400000 + d.toNat * 0x20000 + a.toNat * 0x1000 + i.toNat
  | .mul d a b => 0x2800000 + d.toNat * 0x20000 + a.toNat * 0x1000 + b.toNat * 0x80
  | .mulhs d a b => 0x2800001 + d.toNat * 0x20000 + a.toNat * 0x1000 + b.toNat * 0x80
  | .mulhu d a b => 0x2800002 + d.toNat * 0x20000 + a.toNat * 0x1000 + b.toNat * 0x80
  | .mulhm d a b => 0x2800003 + d.toNat * 0x20000 + a.toNat * 0x1000 + b.toNat * 0x80
  | .mul32s d a b => 0x2800004 + d.toNat * 0x20000 + a.toNat * 0x1000 + b.toNat * 0x80
  | .divs d a b => 0x2C00000 + d.toNat * 0x20000 + a.toNat * 0x1000 + b.toNat * 0x80
  | .divu d a b => 0x2C00001 + d.toNat * 0x20000 + a.toNat * 0x1000 + b.toNat * 0x80
  | .rems d a b => 0x2C00002 + d.toNat * 0x20000 + a.toNat * 0x1000 + b.toNat * 0x80
  | .remu d a b => 0x2C00003 + d.toNat * 0x20000 + a.toNat * 0x1000 + b.toNat * 0x80
  | .li d i => 0x3000000 + d.toNat * 0x20000 + i.toNat
  | .lis d i => 0x3400000 + d.toNat * 0x20000 + i.toNat
  | .fadd d a b m => 0x4000000 + d.toNat * 0x20000 + a.toNat * 0x1000 + b.toNat * 0x80 + m.toNat * 0x10
  | .fsub d a b m => 0x4000001 + d.toNat * 0x20000 + a.toNat * 0x1000 + b.toNat * 0x80 + m.toNat * 0x10
  | .fmul d a b m => 0x4000002 + d.toNat * 0x20000 + a.toNat * 0x1000 + b.toNat * 0x80 + m.toNat * 0x10
  | .fdiv d a b m => 0x4000003 + d.toNat * 0x20000 + a.toNat * 0x1000 + b.toNat * 0x80 + m.toNat * 0x10
  | .fsqrt d a m => 0x4000004 + d.toNat * 0x20000 + a.toNat * 0x1000 + m.toNat * 0x10
  | .fmin d a b => 0x4000005 + d.toNat * 0x20000 + a.toNat * 0x1000 + b.toNat * 0x80
  | .fmax d a b => 0x4000006 + d.toNat * 0x20000 + a.toNat * 0x1000 + b.toNat * 0x80
  | .fabs d a => 0x4000007 + d.toNat * 0x20000 + a.toNat * 0x1000
  | .fneg d a => 0x4000008 + d.toNat * 0x20000 + a.toNat * 0x1000
  | .fmadd d a b m => 0x4400000 + d.toNat * 0x20000 + a.toNat * 0x1000 + b.toNat * 0x80 + m.toNat * 0x10
  | .fmsub d a b m => 0x4400001 + d.toNat * 0x20000 + a.toNat * 0x1000 + b.toNat * 0x80 + m.toNat * 0x10
  | .fnmadd d a b m => 0x4400002 + d.toNat * 0x20000 + a.toNat * 0x1000 + b.toNat * 0x80 + m.toNat * 0x10
  | .fnmsub d a b m => 0x4400003 + d.toNat * 0x20000 + a.toNat * 0x1000 + b.toNat * 0x80 + m.toNat * 0x10
  | .fcmp d a b c => 0x4800000 + d.toNat * 0x20000 + a.toNat * 0x1000 + b.toNat * 0x80 + c.toNat
  | .fcvtF32L d a m s => 0x4C00000 + d.toNat * 0x20000 + a.toNat * 0x1000 + m.toNat * 0x10 + s.toNat * 0x8
  | .fcvtF32Lu d a m s => 0x4C00001 + d.toNat * 0x20000 + a.toNat * 0x1000 + m.toNat * 0x10 + s.toNat * 0x8
  | .fcvtLF32 d a m => 0x4C00002 + d.toNat * 0x20000 + a.toNat * 0x1000 + m.toNat * 0x10
  | .fcvtLuF32 d a m => 0x4C00003 + d.toNat * 0x20000 + a.toNat * 0x1000 + m.toNat * 0x10
  | .fcvtWF32 d a m => 0x4C00004 + d.toNat * 0x20000 + a.toNat * 0x1000 + m.toNat * 0x10
  | .fcvtBf16F32 d a m s => 0x4C00005 + d.toNat * 0x20000 + a.toNat * 0x1000 + m.toNat * 0x10 + s.toNat * 0x8
  | .fcvtF32Bf16 d a => 0x4C00006 + d.toNat * 0x20000 + a.toNat * 0x1000
  | .vadd d a b t => 0x8000000 + d.toNat * 0x20000 + a.toNat * 0x1000 + b.toNat * 0x80 + t.toNat * 0x10
  | .vsub d a b t => 0x8000001 + d.toNat * 0x20000 + a.toNat * 0x1000 + b.toNat * 0x80 + t.toNat * 0x10
  | .vadds d a b t => 0x8000002 + d.toNat * 0x20000 + a.toNat * 0x1000 + b.toNat * 0x80 + t.toNat * 0x10
  | .vsubs d a b t => 0x8000003 + d.toNat * 0x20000 + a.toNat * 0x1000 + b.toNat * 0x80 + t.toNat * 0x10
  | .vmul d a b t => 0x8000004 + d.toNat * 0x20000 + a.toNat * 0x1000 + b.toNat * 0x80 + t.toNat * 0x10
  | .vmulh d a b t => 0x8000005 + d.toNat * 0x20000 + a.toNat * 0x1000 + b.toNat * 0x80 + t.toNat * 0x10
  | .vmin d a b t => 0x8000006 + d.toNat * 0x20000 + a.toNat * 0x1000 + b.toNat * 0x80 + t.toNat * 0x10
  | .vmax d a b t => 0x8000007 + d.toNat * 0x20000 + a.toNat * 0x1000 + b.toNat * 0x80 + t.toNat * 0x10
  | .vand d a b t => 0x8000008 + d.toNat * 0x20000 + a.toNat * 0x1000 + b.toNat * 0x80 + t.toNat * 0x10
  | .vor d a b t => 0x8000009 + d.toNat * 0x20000 + a.toNat * 0x1000 + b.toNat * 0x80 + t.toNat * 0x10
  | .vxor d a b t => 0x800000A + d.toNat * 0x20000 + a.toNat * 0x1000 + b.toNat * 0x80 + t.toNat * 0x10
  | .vshl d a b t => 0x800000B + d.toNat * 0x20000 + a.toNat * 0x1000 + b.toNat * 0x80 + t.toNat * 0x10
  | .vshr d a b t => 0x800000C + d.toNat * 0x20000 + a.toNat * 0x1000 + b.toNat * 0x80 + t.toNat * 0x10
  | .vsar d a b t => 0x800000D + d.toNat * 0x20000 + a.toNat * 0x1000 + b.toNat * 0x80 + t.toNat * 0x10
  | .vabs d a t => 0x800000E + d.toNat * 0x20000 + a.toNat * 0x1000 + t.toNat * 0x10
  | .vfadd d a b t => 0x8400000 + d.toNat * 0x20000 + a.toNat * 0x1000 + b.toNat * 0x80 + t.toNat * 0x10
  | .vfsub d a b t => 0x8400001 + d.toNat * 0x20000 + a.toNat * 0x1000 + b.toNat * 0x80 + t.toNat * 0x10
  | .vfmul d a b t => 0x8400002 + d.toNat * 0x20000 + a.toNat * 0x1000 + b.toNat * 0x80 + t.toNat * 0x10
  | .vfdiv d a b t => 0x8400003 + d.toNat * 0x20000 + a.toNat * 0x1000 + b.toNat * 0x80 + t.toNat * 0x10
  | .vfsqrt d a t => 0x8400004 + d.toNat * 0x20000 + a.toNat * 0x1000 + t.toNat * 0x10
  | .vfmin d a b t => 0x8400005 + d.toNat * 0x20000 + a.toNat * 0x1000 + b.toNat * 0x80 + t.toNat * 0x10
  | .vfmax d a b t => 0x8400006 + d.toNat * 0x20000 + a.toNat * 0x1000 + b.toNat * 0x80 + t.toNat * 0x10
  | .vfabs d a t => 0x8400007 + d.toNat * 0x20000 + a.toNat * 0x1000 + t.toNat * 0x10
  | .vfneg d a t => 0x8400008 + d.toNat * 0x20000 + a.toNat * 0x1000 + t.toNat * 0x10
  | .vfmadd d a b t => 0x8800000 + d.toNat * 0x20000 + a.toNat * 0x1000 + b.toNat * 0x80 + t.toNat * 0x10
  | .vfmsub d a b t => 0x8800001 + d.toNat * 0x20000 + a.toNat * 0x1000 + b.toNat * 0x80 + t.toNat * 0x10
  | .vfnmadd d a b t => 0x8800002 + d.toNat * 0x20000 + a.toNat * 0x1000 + b.toNat * 0x80 + t.toNat * 0x10
  | .vfnmsub d a b t => 0x8800003 + d.toNat * 0x20000 + a.toNat * 0x1000 + b.toNat * 0x80 + t.toNat * 0x10
  | .vcmp q a b t c => 0x8C00000 + q.toNat * 0x20000 + a.toNat * 0x1000 + b.toNat * 0x80 + t.toNat * 0x10 + c.toNat
  | .qand q r s => 0x8C00008 + q.toNat * 0x20000 + r.toNat * 0x1000 + s.toNat * 0x80
  | .qor q r s => 0x8C00009 + q.toNat * 0x20000 + r.toNat * 0x1000 + s.toNat * 0x80
  | .qxor q r s => 0x8C0000A + q.toNat * 0x20000 + r.toNat * 0x1000 + s.toNat * 0x80
  | .qandn q r s => 0x8C0000B + q.toNat * 0x20000 + r.toNat * 0x1000 + s.toNat * 0x80
  | .qsetx q a => 0x8C0000C + q.toNat * 0x20000 + a.toNat * 0x1000
  | .qgetx d r => 0x8C0000D + d.toNat * 0x20000 + r.toNat * 0x1000
  | .vsel d a b t q => 0x9000000 + d.toNat * 0x20000 + a.toNat * 0x1000 + b.toNat * 0x80 + t.toNat * 0x10 + q.toNat
  | .vbcastX d a t => 0x9400000 + d.toNat * 0x20000 + a.toNat * 0x1000 + t.toNat * 0x10
  | .vbcastLane d a b t => 0x9400001 + d.toNat * 0x20000 + a.toNat * 0x1000 + b.toNat * 0x80 + t.toNat * 0x10
  | .vperm d a b t => 0x9800000 + d.toNat * 0x20000 + a.toNat * 0x1000 + b.toNat * 0x80 + t.toNat * 0x10
  | .vexp2 d a t => 0x9C00000 + d.toNat * 0x20000 + a.toNat * 0x1000 + t.toNat * 0x10
  | .vrcp d a t => 0x9C00001 + d.toNat * 0x20000 + a.toNat * 0x1000 + t.toNat * 0x10
  | .vrsq d a t => 0x9C00002 + d.toNat * 0x20000 + a.toNat * 0x1000 + t.toNat * 0x10
  | .vredAdd d a q t => 0xA000000 + d.toNat * 0x20000 + a.toNat * 0x1000 + q.toNat * 0x80 + t.toNat * 0x10
  | .vredMax d a q t => 0xA000001 + d.toNat * 0x20000 + a.toNat * 0x1000 + q.toNat * 0x80 + t.toNat * 0x10
  | .vredMin d a q t => 0xA000002 + d.toNat * 0x20000 + a.toNat * 0x1000 + q.toNat * 0x80 + t.toNat * 0x10
  | .vredMaxi d a q t => 0xA000003 + d.toNat * 0x20000 + a.toNat * 0x1000 + q.toNat * 0x80 + t.toNat * 0x10
  | .vxtr d a b t => 0xA000004 + d.toNat * 0x20000 + a.toNat * 0x1000 + b.toNat * 0x80 + t.toNat * 0x10
  | .vpopq d q t => 0xA000005 + d.toNat * 0x20000 + q.toNat * 0x80 + t.toNat * 0x10
  | .vsumkAcc d a q => 0xA400000 + d.toNat * 0x20000 + a.toNat * 0x1000 + q.toNat * 0x80
  | .vsumkScale d a q => 0xA400001 + d.toNat * 0x20000 + a.toNat * 0x1000 + q.toNat * 0x80
  | .vsumkFold d q => 0xA400002 + d.toNat * 0x20000 + q.toNat * 0x80
  | .vsumkFin d q => 0xA400003 + d.toNat * 0x20000 + q.toNat * 0x80
  | .vscan d a q t c o => 0xA800000 + d.toNat * 0x20000 + a.toNat * 0x1000 + q.toNat * 0x80 + t.toNat * 0x10 + c.toNat * 0x4 + o.toNat
  | .vhad d a k t => 0xAC00000 + d.toNat * 0x20000 + a.toNat * 0x1000 + k.toNat * 0x80 + t.toNat * 0x10
  | .vcvt d a k t s m => 0xB000000 + d.toNat * 0x20000 + a.toNat * 0x1000 + k.toNat * 0x80 + t.toNat * 0x10 + s.toNat * 0x8 + m.toNat
  | .mzero c m => 0xC000000 + c.toNat * 0x80000 + m.toNat
  | .mma c a b s => 0xC400000 + c.toNat * 0x80000 + a.toNat * 0x4000 + b.toNat * 0x200 + s.toNat
  | .mmag c a b s => 0xC800000 + c.toNat * 0x80000 + a.toNat * 0x4000 + b.toNat * 0x200 + s.toNat
  | .mprom c => 0xCC00000 + c.toNat * 0x80000
  | .mrdW c v b => 0xD000000 + c.toNat * 0x80000 + v.toNat * 0x4000 + b.toNat * 0x200
  | .mrdF32 c v b s m => 0xD000001 + c.toNat * 0x80000 + v.toNat * 0x4000 + b.toNat * 0x200 + s.toNat * 0x40 + m.toNat * 0x8
  | .mrdBf16 c v b s m => 0xD000002 + c.toNat * 0x80000 + v.toNat * 0x4000 + b.toNat * 0x200 + s.toNat * 0x40 + m.toNat * 0x8
  | .mrdRaw c v b => 0xD000003 + c.toNat * 0x80000 + v.toNat * 0x4000 + b.toNat * 0x200
  | .mrdStat c v => 0xD000004 + c.toNat * 0x80000 + v.toNat * 0x4000
  | .mst c a b e s m => 0xD400000 + c.toNat * 0x80000 + a.toNat * 0x4000 + b.toNat * 0x200 + e.toNat * 0x10 + s.toNat * 0x8 + m.toNat
  | .mscl c a r => 0xD800000 + c.toNat * 0x80000 + a.toNat * 0x4000 + r.toNat
  | .seedx d a b => 0xE000000 + d.toNat * 0x20000 + a.toNat * 0x1000 + b.toNat * 0x80
  | .seedfit d a b n => 0xE400000 + d.toNat * 0x20000 + a.toNat * 0x1000 + b.toNat * 0x80 + n.toNat
  | _ => 0

/-- The word of an instruction with the given group code and W, as a number. -/
def encodeNat (h : Header) (i : Instr) : Nat :=
  h.code.toNat * 0x40000000 + (if h.w then 0x20000000 else 0) + i.operandBits

/-- The encoder, written from the same tables. -/
def encode (h : Header) (i : Instr) : BitVec 32 := BitVec.ofNat 32 (encodeNat h i)

/-- A header that fits the instruction's class: bit 31 is the class (Table 7-1). -/
def Header.fits (h : Header) (i : Instr) : Bool := decide (2 ≤ h.code.toNat) == i.isA

/-- The 32-bit word stored little-endian in a list of bytes (R8, R189). -/
def wordOfBytes : List (BitVec 8) → Option (BitVec 32 × List (BitVec 8))
  | a :: b :: c :: d :: rest => some (d ++ c ++ b ++ a, rest)
  | _ => none

/-- The decoder on bytes: the instruction of the first word, and the bytes after it. -/
def decodeBytes (bs : List (BitVec 8)) : Except Reason (Header × Instr × List (BitVec 8)) :=
  match wordOfBytes bs with
  | none => .error 0
  | some (w, rest) =>
    match decodeWord w with
    | .ok (h, i) => .ok (h, i, rest)
    | .error r => .error r

/-- The bytes of a word, least significant first (R8). -/
def bytesOfWord (w : BitVec 32) : List (BitVec 8) :=
  [w.extractLsb' 0 8, w.extractLsb' 8 8, w.extractLsb' 16 8, w.extractLsb' 24 8]

/-- The instruction the decoder reads from the bits of an opcode-table row: the word is laid out in its four bytes and
given to the decoder. A row of the table has 32 bits or no encoding at all. -/
def decodeTableWord (nbits w : Nat) : Option Instr :=
  if nbits = 0 ∨ 32 < nbits then none
  else match decodeBytes (bytesOfWord (BitVec.ofNat 32 w)) with
    | .ok (_, i, _) => some i
    | .error _ => none

end Sys2Proof
end

