-- ==== Sys2Proof/Machine/Memory.lean ====
section
/-!
DEFINITION. Scalar and vector loads and stores, atomics, fences, phase barriers and monitored waits (R224 to R234, R243 to
R247), and what becomes of a remote request at its target and on its return (R110, R232, R440, R441).
-/
namespace Sys2Proof.Machine

/-! ## Scalar loads and stores (R224, Table 8-5) -/

/-- Byte count and alignment of a scalar access of `n` bytes: raw through window 0 and in the global aperture, one
container elsewhere; through window 15, which has none, the access's own width. -/
def scalarSize (n : Nat) (c : Acc) : Nat := if c.glob || c.win == 0 || c.win == 15 then n else winBits c.win / 8
def scalarAlign (n : Nat) (c : Acc) : Nat := if c.glob || c.win == 0 then n else winAlign c.win

/-- The windows that admits an integer access, a float load, a float store (Table 8-5). -/
def admitInt (c : Acc) : Bool := c.glob || c.win == 0 || c.win == 3 || c.win == 4
def admitLdf (c : Acc) : Bool := admitInt c || decide (8 ≤ c.win)
def admitStf (c : Acc) : Bool := c.glob || c.win == 0 || decide (8 ≤ c.win)

/-- The latency of a load (Table 16-2); a remote one waits for its response. (Log 14: DESIGN CHOICE, unsafe) -/
def loadLat : Nat := 2

/-- SYS.WSCALE[w] of the issuing column (R119). -/
def State.scale (s : State) (w : Nat) : Nat := (sget 0x3F800000#64 s.me.wscale w).toNat % 2 ^ 32

/-- The I-form address. -/
def State.addrI (s : State) (a : BitVec 5) (i : BitVec 12) : Word := s.X a + i.signExtend 64

/-- LD.n and LDU.n. -/
def ldInt (n : Nat) (signed : Bool) (d a : BitVec 5) (i : BitVec 12) (s : State) : Out :=
  s.need [.x a.toNat, .x d.toNat]
    (let va := s.addrI a i
     s.onChk (s.access va false (scalarSize n) (scalarAlign n) admitInt) (fun c l =>
       s.load c va l
         { fin := (if c.glob || c.win == 0 then 0 else 2) + (if signed then 0 else 1), win := c.win, tgt := 8 * n,
           scale := 0, imm := 0 } (.x d.toNat) loadLat 0))

/-- LDF: `n` bytes raw, or one element as FP32 (fin 4) or BF16 (fin 5). -/
def ldFloat (n fin : Nat) (d a : BitVec 5) (i : BitVec 12) (s : State) : Out :=
  s.need [.x a.toNat, .x d.toNat]
    (let va := s.addrI a i
     s.onChk (s.access va false (scalarSize n) (scalarAlign n) admitLdf) (fun c l =>
       s.load c va l
         { fin := if c.glob || c.win == 0 then 1 else fin, win := c.win, tgt := 0, scale := s.scale c.win, imm := 0 }
         (.x d.toNat) loadLat 0))

def execLdB (d a : BitVec 5) (i : BitVec 12) (s : State) : Out := ldInt 1 true d a i s
def execLdH (d a : BitVec 5) (i : BitVec 12) (s : State) : Out := ldInt 2 true d a i s
def execLdW (d a : BitVec 5) (i : BitVec 12) (s : State) : Out := ldInt 4 true d a i s
def execLdD (d a : BitVec 5) (i : BitVec 12) (s : State) : Out := ldInt 8 true d a i s
def execLduB (d a : BitVec 5) (i : BitVec 12) (s : State) : Out := ldInt 1 false d a i s
def execLduH (d a : BitVec 5) (i : BitVec 12) (s : State) : Out := ldInt 2 false d a i s
def execLduW (d a : BitVec 5) (i : BitVec 12) (s : State) : Out := ldInt 4 false d a i s
def execLdfF32 (d a : BitVec 5) (i : BitVec 12) (s : State) : Out := ldFloat 4 4 d a i s
def execLdfBf16 (d a : BitVec 5) (i : BitVec 12) (s : State) : Out := ldFloat 2 5 d a i s

/-- The container code an integer source of `n` bytes stores: raw, or clamped to the window's range (R116). -/
def storeInt (n : Nat) (c : Acc) (v : Word) : Nat :=
  if c.glob || c.win == 0 then v.toNat % 2 ^ (8 * n)
  else um 8 (clampI (winLo c.win) (winHi c.win) (sx (8 * n) v.toNat))

/-- ST.n: X(d) is the data. -/
def stInt (n : Nat) (d a : BitVec 5) (i : BitVec 12) (s : State) : Out :=
  s.need [.x a.toNat, .x d.toNat]
    (let va := s.addrI a i
     s.onChk (s.access va true (scalarSize n) (scalarAlign n) admitInt) (fun c l =>
       s.store c.isOwn (seqAddrs va l.length) (byteWs l (leBytes l.length (storeInt n c (s.X d)))) none 0 0))

/-- STF: X(d) raw, or decoded in T and converted to the window's format RNE without saturation. -/
def stFloat (n : Nat) (f : Fmt) (d a : BitVec 5) (i : BitVec 12) (s : State) : Out :=
  s.need [.x a.toNat, .x d.toNat]
    (let va := s.addrI a i
     s.onChk (s.access va true (scalarSize n) (scalarAlign n) admitStf) (fun c l =>
       let bits := (s.X d).toNat % 2 ^ (8 * n)
       if c.glob || c.win == 0 then s.store c.isOwn (seqAddrs va l.length) (byteWs l (leBytes n bits)) none 0 0
       else
         let r := (winFmt c.win).cvt (f.decode bits) 0 false
         s.store c.isOwn (seqAddrs va l.length) (byteWs l (leBytes l.length r.code)) none r.fl r.ftz))

def execStB (d a : BitVec 5) (i : BitVec 12) (s : State) : Out := stInt 1 d a i s
def execStH (d a : BitVec 5) (i : BitVec 12) (s : State) : Out := stInt 2 d a i s
def execStW (d a : BitVec 5) (i : BitVec 12) (s : State) : Out := stInt 4 d a i s
def execStD (d a : BitVec 5) (i : BitVec 12) (s : State) : Out := stInt 8 d a i s
def execStfF32 (d a : BitVec 5) (i : BitVec 12) (s : State) : Out := stFloat 4 FP32 d a i s
def execStfBf16 (d a : BitVec 5) (i : BitVec 12) (s : State) : Out := stFloat 2 BF16 d a i s

/-- LDCH (R226): 8 raw bytes at X(s1), plus the immediate. -/
def execLdch (d a : BitVec 5) (i : BitVec 12) (s : State) : Out :=
  s.need [.x a.toNat, .x d.toNat]
    (let va := s.X a
     s.onChk (s.access va false (fun _ => 8) (fun _ => 8) (fun c => c.glob || c.win == 0)) (fun c l =>
       s.load c va l { fin := 6, win := 0, tgt := 0, scale := 0, imm := i.signExtend 64 } (.x d.toNat) loadLat 0))

/-! ## Vector loads and stores (R227 to R230) -/

/-- Bytes and alignment of a whole vector access of lane type t: 64 raw bytes, or the lanes' containers (R114). -/
def vecSize (t : Nat) (c : Acc) : Nat := if c.glob || c.win == 0 || c.win == 15 then 64 else laneN t * winBits c.win / 8
def vecAlign (c : Acc) : Nat := if c.glob || c.win == 0 then 8 else winAlign c.win

/-- A float window does not load into integer lanes; a store's classes must agree (R115, R116). -/
def admitVld (t : Nat) (c : Acc) : Bool := c.glob || c.win == 0 || laneFp t || winInt c.win
def admitVst (t : Nat) (c : Acc) : Bool := c.glob || c.win == 0 || (laneFp t != winInt c.win)

def vecFin (s : State) (t : Nat) (c : Acc) : LoadFin :=
  { fin := 7, win := if c.glob then 0 else c.win, tgt := t, scale := s.scale c.win, imm := 0 }

/-- The containers of stored lanes: raw, clamped integers, or RNE without saturation (R116). -/
def stLane (t : Nat) (c : Acc) (b : Nat) : Rnd :=
  if c.glob || c.win == 0 then { code := b, fl := 0, ftz := 0 }
  else if laneFp t then (winFmt c.win).cvt ((laneFmt t).decode b) 0 false
  else { code := um (winBits c.win) (clampI (winLo c.win) (winHi c.win) (sx (laneW t) b)), fl := 0, ftz := 0 }

def stBits (t : Nat) (c : Acc) : Nat := if c.glob || c.win == 0 then laneW t else winBits c.win

/-- A vector store of converted lanes, with the flags its conversions raise; `vas`: the address of each byte. -/
def State.vstore (s : State) (c : Acc) (vas : List Word) (l : List Loc) (t : Nat) (ls : List Nat) (o : BitVec 4) : Out :=
  let r := ls.map (stLane t c)
  let bs := leBytes l.length (packNat (stBits t c) (r.map (·.code)))
  s.store c.isOwn vas (byteWs l bs) (relScope o) (flagsOf r) (ftzOf r)

def execVld (d a b : BitVec 5) (t : BitVec 3) (o : BitVec 4) (s : State) : Out :=
  s.need [.x a.toNat, .x b.toNat, .v d.toNat]
    (let va := s.X a + s.X b
     s.onChk (s.access va false (vecSize t.toNat) vecAlign (admitVld t.toNat)) (fun c l =>
       s.load c va l (vecFin s t.toNat c) (.v d.toNat) loadLat o))

def execVst (d a b : BitVec 5) (t : BitVec 3) (o : BitVec 4) (s : State) : Out :=
  s.need [.x a.toNat, .x b.toNat, .v d.toNat]
    (let va := s.X a + s.X b
     s.onChk (s.access va true (vecSize t.toNat) vecAlign (admitVst t.toNat)) (fun c l =>
       s.vstore c (seqAddrs va l.length) l t.toNat (lanesOf (laneW t.toNat) (s.V d)) o))

/-- Lanes of strided and indexed accesses: windows 1, 2, 5, 6 and 7 are not admitted (R229). -/
def admitLane (t : Nat) (st : Bool) (c : Acc) : Bool :=
  c.glob || c.win == 0 || ((c.win == 3 || c.win == 4 || decide (8 ≤ c.win)) && (if st then admitVst t c else admitVld t c))

/-- The checks of lane i > 0: its own (R212), the last of them with lane 0's aperture, window and slot (R229). (Log
127: DEDUCED, unsafe) -/
def laneChk (p : Nat) (first : Acc) (a : Word) (size align : Acc → Nat) (admits : Acc → Bool) : Except Nat Acc :=
  match checkAcc p a size align admits with
  | .error k => .error k
  | .ok c => if c.glob ≠ first.glob ∨ c.clu ≠ first.clu ∨ c.slot ≠ first.slot ∨ c.win ≠ first.win then .error 0x104 else .ok c

/-- Every lane is checked before any lane takes effect; the bytes of all lanes in lane order. -/
def State.laneLocs (s : State) (first : Acc) (t : Nat) (wr : Bool) : List Word → List Loc → Chk
  | [], l => .ok first l
  | a :: r, l =>
    match laneChk s.cur first a (scalarSize (laneW t / 8)) (scalarAlign (laneW t / 8)) (admitLane t wr) with
    | .error k => .trap k a
    | .ok c => match s.locate s.cur a c (scalarSize (laneW t / 8) c) wr with
      | .ok _ l' => s.laneLocs first t wr r (l ++ l')
      | k => k

/-- Log 36: DEDUCED, unsafe. -/
def State.accessLanes (s : State) (as : List Word) (t : Nat) (st : Bool) : Chk :=
  match as with
  | [] => .trap 0x100 0
  | a :: r =>
    match checkAcc s.cur a (scalarSize (laneW t / 8)) (scalarAlign (laneW t / 8)) (admitLane t st) with
    | .error k => .trap k a
    | .ok c =>
      match s.locate s.cur a c (scalarSize (laneW t / 8) c) st with
      | .ok _ l => s.laneLocs c t st r l
      | k => k

/-- 64-byte lines touched beyond the first (Table 16-2). -/
def extraLines (l : List Loc) : Nat := (l.map Loc.line).eraseDups.length - 1

/-- Lane addresses of the strided form, and of the indexed form (16 lanes). (Log 36: DEDUCED, unsafe) -/
def strideAddrs (n : Nat) (a b : Word) : List Word := (List.range n).map (fun i => a + w64 i * b)
/-- Log 36: DEDUCED, unsafe. -/
def indexAddrs (a : Word) (v : VWord) : List Word := (lanesOf 32 v).map (fun x => a + i64 (sx 32 x))

def State.loadLanes (s : State) (as : List Word) (d : BitVec 5) (t : BitVec 3) (o : BitVec 4) : Out :=
  s.onChk (s.accessLanes as t.toNat false) (fun c l =>
    s.load c (as.headD 0) l (vecFin s t.toNat c) (.v d.toNat) (loadLat + extraLines l) o)

def State.storeLanes (s : State) (as : List Word) (d : BitVec 5) (t : BitVec 3) (o : BitVec 4) : Out :=
  s.onChk (s.accessLanes as t.toNat true) (fun c l =>
    s.vstore c (as.flatMap (fun a => seqAddrs a (scalarSize (laneW t.toNat / 8) c))) l t.toNat
      ((lanesOf (laneW t.toNat) (s.V d)).take as.length) o)

def execVlds (d a b : BitVec 5) (t : BitVec 3) (o : BitVec 4) (s : State) : Out :=
  s.need [.x a.toNat, .x b.toNat, .v d.toNat]
    (s.loadLanes (strideAddrs (laneN t.toNat) (s.X a) (s.X b)) d t o)

def execVsts (d a b : BitVec 5) (t : BitVec 3) (o : BitVec 4) (s : State) : Out :=
  s.need [.x a.toNat, .x b.toNat, .v d.toNat]
    (s.storeLanes (strideAddrs (laneN t.toNat) (s.X a) (s.X b)) d t o)

def execVgath (d a b : BitVec 5) (t : BitVec 3) (o : BitVec 4) (s : State) : Out :=
  s.need [.x a.toNat, .v b.toNat, .v d.toNat] (s.loadLanes (indexAddrs (s.X a) (s.V b)) d t o)

def execVscat (d a b : BitVec 5) (t : BitVec 3) (o : BitVec 4) (s : State) : Out :=
  s.need [.x a.toNat, .v b.toNat, .v d.toNat] (s.storeLanes (indexAddrs (s.X a) (s.V b)) d t o)

/-! ## Atomics (R231, R232) -/

/-- Table 8-7: the new value, none for a failed compare-and-swap. -/
def amoNew (op : Nat) (old b cas : Word) : Option Word :=
  match op with
  | 0 => some (old + b)
  | 1 => some (old &&& b)
  | 2 => some (old ||| b)
  | 3 => some (old ^^^ b)
  | 4 => some (if b.slt old then b else old)
  | 5 => some (if old.slt b then b else old)
  | 6 => some b
  | _ => if old = cas then some b else none

/-- The read, the operation and the write as one event: the old value and the memory after. -/
def State.amoAt (s : State) (l : Loc) (op : Nat) (b cas : Word) : Word × State :=
  let old := w64 (s.rdNat l 8)
  match amoNew op old b cas with
  | some w => (old, s.wrNat l 8 w.toNat)
  | none => (old, s)

/-- Host memory performs add, swap and compare-and-swap only. -/
def hostAmo (op : Nat) : Bool := op == 0 || op == 6 || op == 7

/-- 8 bytes at the first of the checked locations: the granule the atomic acts on. (Log 31: DEDUCED, unsafe) -/
def amoForm (op : Nat) (d a b : BitVec 5) (o : BitVec 4) (s : State) : Out :=
  s.need [.x a.toNat, .x b.toNat, .x d.toNat]
    (let va := s.X a
     s.onChk (s.access va true (fun _ => 8) (fun _ => 8) (fun c => c.glob || c.win == 0)) (fun c l =>
       match l with
       | [] => s.stalled
       | x :: _ =>
         if isHost x && !hostAmo op then s.trap 0x103 va
         else s.inOrder 3 l
           (if s.relWait o || s.mxWait true l then s.stalled
            else if c.isOwn then
              match s.badLoc l with
              | some y => ((s.countRead l).defer (errCause y).1 2 (errCause y).2).issued
              | none =>
                let r := (s.countRead l).amoAt x op (s.X b) (s.X d)
                (r.2.result (.x d.toNat) (r.1.setWidth 512) 3).issued
            else
              (((s.awaiting (.x d.toNat) s.nextId).request va (.amo x op (s.X b) (s.X d)) (some (.x d.toNat))
                (slotLat c 3)).acquire o s.nextId).issued)))

def execAmoAdd (d a b : BitVec 5) (o : BitVec 4) (s : State) : Out := amoForm 0 d a b o s
def execAmoAnd (d a b : BitVec 5) (o : BitVec 4) (s : State) : Out := amoForm 1 d a b o s
def execAmoOr (d a b : BitVec 5) (o : BitVec 4) (s : State) : Out := amoForm 2 d a b o s
def execAmoXor (d a b : BitVec 5) (o : BitVec 4) (s : State) : Out := amoForm 3 d a b o s
def execAmoMin (d a b : BitVec 5) (o : BitVec 4) (s : State) : Out := amoForm 4 d a b o s
def execAmoMax (d a b : BitVec 5) (o : BitVec 4) (s : State) : Out := amoForm 5 d a b o s
def execAmoSwap (d a b : BitVec 5) (o : BitVec 4) (s : State) : Out := amoForm 6 d a b o s
def execAmoCas (d a b : BitVec 5) (o : BitVec 4) (s : State) : Out := amoForm 7 d a b o s

/-! ## Fences (R145 to R147) -/

/-- FENCE (R145, R233): the earlier events of the kinds in its set are waited for by the later events of those kinds, within
its scope; at system scope with W also for a host flush. Other later events issue past it; an empty set orders
nothing. (Log 32: DEDUCED, unsafe) -/
def execFence (e m r : BitVec 1) (o : BitVec 3) (s : State) : Out :=
  let reqs := if r == 1#1 then s.unperformed o.toNat false else if m == 1#1 then s.unperformed o.toNat true else []
  (s.addOrder { kinds := r.toNat + 2 * m.toNat + 4 * e.toNat, scope := o.toNat, reqs := reqs,
                engs := if e == 1#1 then s.engineIds s.cur s.me.band else [], flush := m == 1#1 && o == 4#3,
                fresh := true }).issued

/-- The layer of a handle once the accepted commands ahead of command `id` have been carried out. -/
def State.layerAhead (s : State) (p h id : Nat) : Nat :=
  let ahead := ((sget [] s.lse (dieOf p)).takeWhile (fun k => k.id != id)).filter (fun k =>
    decide (k.col = p) && decide (k.h = h) && !k.failed && !k.switched && k.desc % 16 != 1)
  (ahead.getLast?.map (fun k => fieldN k.desc 226 224)).getD (sget Handle.empty (s.col p).htab h).layer

/-- A command waits neither for a marker nor for an in-use count: it has started, it is a relocation, or its gate, if it has
one, is met and its handle is not in use (R83, R125, R147). -/
def State.lseStarted (s : State) (k : LCmd) : Bool :=
  let c := s.col k.col
  let ch := sget Chan.empty c.chans (fieldN k.desc 28 22)
  k.started || k.desc % 16 == 2 || ((sget Handle.empty c.htab k.h).inuse == 0 &&
    (!bitN k.desc 29 || (!ch.held && ch.gate.contains (k.id, false) && ch.headMarker.elim false (fun i => i.msg.kind == 1))))

/-- Started LSE commands of column p whose writes into a layer have not all reached the banks, or whose relocation into or
out of it is not complete (R147). (Log 33: DEDUCED, unsafe) -/
def State.lseInLayer (s : State) (p layer : Nat) : List Nat :=
  ((sget [] s.lse (dieOf p)).filter (fun k =>
    decide (k.col = p) && !k.switched && !k.failed && s.lseStarted k &&
      ((k.desc % 16 != 0 && s.layerAhead p k.h k.id == layer) ||
       (k.desc % 16 != 1 && fieldN k.desc 226 224 == layer)))).map (·.id)

/-- LFENCE (R147): later groups wait for the LSE commands of its layer that have started. (Log 33: DEDUCED, unsafe) -/
def execLfence (n : BitVec 3) (s : State) : Out :=
  (s.modFire (fun f => { f with lwait := some (f.lwait.getD [] ++ s.lseInLayer s.cur n.toNat) })).issued

/-! ## Phase barriers (R243 to R245) -/

/-- PBARR on the object's two granules: its value, whether it overran, and the granules after (R244). -/
def pbarrStep (g0 g1 c : Nat) : Nat × Bool × Nat × Nat :=
  let pend := g0 % 2 ^ 32
  let reload := g0 / 2 ^ 32
  let ph := g1 % 16
  let overrun := decide (pend < c)
  let left := pend - c
  let done := decide (left = 0) && (decide (0 < c) || overrun)
  let ovr := bitN g1 4 || overrun
  (ph + 16 * b2n done, overrun, (if done then reload else left) + 2 ^ 32 * reload,
   (if done then (ph + 1) % 16 else ph) + 16 * b2n ovr)

/-- PBARR as one event at its object; bit 64 of the value marks the overrun. -/
def State.pbarrAt (s : State) (l : Loc) (c : Word) : VWord × State :=
  let r := pbarrStep (s.rdNat l 8) (s.rdNat (l.add 8) 8) c.toNat
  (BitVec.ofNat 512 (r.1 + 2 ^ 64 * b2n r.2.1), (s.wrNat l 8 r.2.2.1).wrNat (l.add 8) 8 r.2.2.2)

def execPbarr (d a b : BitVec 5) (o : BitVec 4) (s : State) : Out :=
  s.need [.x a.toNat, .x b.toNat, .x d.toNat]
    (let va := s.X a
     s.onChk (s.access va true (fun _ => 16) (fun _ => 16) (fun c => c.glob || c.win == 0)) (fun c l =>
       match l with
       | [] => s.stalled
       | x :: _ =>
         if isHost x then s.trap 0x103 va
         else s.inOrder 3 l
           (if s.relWait o || s.mxWait true l then s.stalled
            else if c.isOwn then
              match s.badLoc l with
              | some y => ((s.countRead l).defer (errCause y).1 2 (errCause y).2).issued
              | none =>
                let r := (s.countRead l).pbarrAt x (s.X b)
                let t := r.2.result (.x d.toNat) (r.1 % BitVec.ofNat 512 (2 ^ 64)) 3
                if r.1.getLsbD 64 then t.trap 0x18C va else t.issued
            else
              (((s.awaiting (.x d.toNat) s.nextId).request va (.pbarr x va (s.X b)) (some (.x d.toNat)) (slotLat c 3)).acquire
                o s.nextId).issued)))

/-! ## Monitored waits (R245 to R247) -/

def State.wait (s : State) : Option Wait := s.fire.bind (·.wait)

/-- The cycle from which a wait counts: its first issue (R247). (Log 42: DEDUCED, unsafe) -/
def State.waitFrom (s : State) : Nat := (s.wait.map (·.since)).getD s.me.cycle

/-- The word is read in this cycle: an own word in every cycle, any other at issue and every 64 cycles (R246). -/
def State.waitReads (s : State) (own : Bool) : Bool := own || (s.me.cycle - s.waitFrom) % 64 == 0

/-- The wait goes on; a read of another memory is under way as request `req`. (Log 42: DEDUCED, unsafe) -/
def State.waitOn (s : State) (req : Option Nat) : Out :=
  (s.modFire (fun f => { f with wait := some { since := s.waitFrom, req := req, got := none } })).stalled

/-- The wait is over and its group issues. (Log 42: DEDUCED, unsafe) -/
def State.waitEnd (s : State) : State := s.modFire (fun f => { f with wait := none })
def State.waitDone (s : State) (d : BitVec 5) (w : Word) (lat : Nat) : Out :=
  (s.waitEnd.result (.x d.toNat) (w.setWidth 512) lat).issued

/-- The latency of a read of a wait in a local store (Table 16-2); a read through the global aperture waits for its
response, whose latency is not fixed. (Log 50: DEDUCED, unsafe) -/
def waitLat (c : Acc) : Nat := if c.isOwn then 2 else 8

/-- An earlier load or atomic of the column, of whatever band, to one of the granules has not been performed: the read comes
after it (R140, R141). (Log 35: DEDUCED, unsafe) -/
def State.ownBefore (s : State) (l : List Loc) : Bool :=
  s.reqs.any (fun r => decide (r.col = s.cur) && r.dst.isSome && r.st == .sent &&
    r.op.locs.any (fun x => l.any (fun y => x.granule == y.granule)))

/-- A wait on the bytes `l` at `va`, which ends with the value `f v` at the first read whose value `v` meets `holds`, or
that is performed `t` or more cycles after issue. A read of a local store is made in the cycle of issue; one through the
global aperture is a request, and its response is awaited (R225, R391). -/
def State.waitLoop (s : State) (d : BitVec 5) (k : Acc) (va : Word) (l : List Loc) (t : Nat) (holds : Nat → Bool)
    (f : Nat → Word) : Out :=
  s.inOrder 1 l
    (if s.mxWait false l then s.stalled
     else if k.glob then
       match s.wait.bind (·.got), s.wait.bind (·.req) with
       | some (.done w _ _, when), _ =>
         if holds w.toNat = true ∨ t ≤ when - s.waitFrom then s.waitDone d (f w.toNat) 0 else s.waitOn none
       | some (.bad c v, _), _ => (s.waitEnd.defer c 2 v).issued
       | some (_, _), _ => (s.waitEnd.defer 0x10C 1 va).issued
       | none, some i => s.waitOn (some i)
       | none, none =>
         if s.waitReads false then
           (s.request va (.load l 1 0 0 0 0) (some (.x d.toNat))).waitOn (some s.nextId)
         else s.waitOn none
     else if s.ownBefore l || !s.waitReads k.isOwn then s.waitOn none
     else match s.badLoc l with
       | some y => ((s.countRead l).waitEnd.defer (errCause y).1 2 (errCause y).2).issued
       | none =>
         let v := leNat (l.map s.rd)
         if holds v = true ∨ t ≤ s.me.cycle - s.waitFrom then (s.countRead l).waitDone d (f v) (waitLat k)
         else (s.countRead l).waitOn none)

/-- PBWAIT reads the second granule of its object (R245). -/
def execPbwait (d a b : BitVec 5) (_o : BitVec 4) (s : State) : Out :=
  s.need [.x a.toNat, .x b.toNat, .x d.toNat]
    (let va := s.X a
     s.onChk (s.access va false (fun _ => 16) (fun _ => 16) (fun c => c.glob || c.win == 0)) (fun c l =>
       if l.any isHost then s.trap 0x103 va
       else
         let p := fieldW (s.X b) 3 0
         s.waitLoop d c (va + 8) (l.drop 8) (fieldW (s.X b) 63 32) (fun g => g % 16 != p)
           (fun g => w64 (g % 32 + 32 * b2n (decide (g % 16 = p))))))

/-- The condition of MWAIT: 0 eq, 1 ne, 2 geu (R246). -/
def mwaitHolds (cond v x : Nat) : Bool :=
  match cond with
  | 0 => v == x
  | 1 => v != x
  | _ => decide (x ≤ v)

def execMwait (d a b : BitVec 5) (c : BitVec 2) (z : BitVec 1) (_o : BitVec 4) (s : State) : Out :=
  s.need [.x a.toNat, .x b.toNat, .x d.toNat]
    (let va := s.X a
     let n := if z == 1#1 then 8 else 4
     s.onChk (s.access va false (fun _ => n) (fun _ => n) (fun c => c.glob || c.win == 0)) (fun k l =>
       s.waitLoop d k va l (fieldW (s.X d) 31 0) (fun v => mwaitHolds c.toNat v ((s.X b).toNat % 2 ^ (8 * n))) w64))

/-- The wait of the running firing of column `p`, and the word at which it stalls. -/
def State.waitingWord (s : State) (p : Nat) : Option (Wait × Instr) :=
  match (s.col p).firing (s.col p).band with
  | some f => match f.wait, decodeWord (BitVec.ofNat 32 (s.mem32 p f.pc)) with
    | some w, .ok (_, i) => some (w, i)
    | _, _ => none
  | none => none

/-- The repeated read of a wait (R245, R246) is made by the reissued group, in the cycle it gets: the step is that the
column's next turn is due. It can be taken in a cycle in which a word of the own local store may have changed, or in every
64th. (Log 34: DEDUCED, safe) -/
def State.readAgain (s : State) (p : Nat) (w : Wait) (a : BitVec 5) : Option State :=
  let own := ((decodeAddr p (((s.col p).bank (s.col p).bankIx).readX a.toNat)).map Acc.isOwn).getD false
  if own || ((s.col p).cycle - w.since) % 64 == 0 then some { s with agenda := .issue p :: s.agenda } else none

/-- MWAIT_READ and PBWAIT_READ. (Log 34: DEDUCED, safe) -/
def evMwaitRead (p : Nat) (s : State) : Option State :=
  match s.waitingWord p with
  | some (w, .mwait _ a _ _ _ _) => s.readAgain p w a
  | _ => none

/-- Log 34: DEDUCED, safe. -/
def evPbwaitRead (p : Nat) (s : State) : Option State :=
  match s.waitingWord p with
  | some (w, .pbwait _ a _ _) => s.readAgain p w a
  | _ => none

def execMwaitRead (c : Nat) (s : State) : Out := event (evMwaitRead c) s
def execPbwaitRead (c : Nat) (s : State) : Out := event (evPbwaitRead c) s

/-! ## Remote requests at their target and on their return -/

/-- The places of a request's bytes not performed yet, each with its location. -/
def MemReq.left (r : MemReq) : List (Nat × Loc) :=
  (zipW (fun i l => (i, l)) (List.range r.op.locs.length) r.op.locs).filter (fun x => !r.got.any (fun g => g.1 == x.1))

/-- A granule is one access, and each may be performed by itself (R135): the k-th of those left, or all of them. An atomic
is one event. -/
def MemReq.piece (r : MemReq) : Option Nat → List (Nat × Loc)
  | none => r.left
  | some k => match r.op.atomic, ((r.left.map (fun x => x.2.granule)).eraseDups)[k]? with
    | false, some g => r.left.filter (fun x => x.2.granule == g)
    | _, _ => r.left

/-- An earlier request of the same column still has to reach one of the granules (R141). (Log 35: DEDUCED, unsafe) -/
def reqBlocked (l : List MemReq) (n : Nat) (col : Nat) (x : List (Nat × Loc)) : Bool :=
  (l.take n).any (fun q => decide (q.col = col) && q.st == .sent &&
    q.left.any (fun y => x.any (fun z => z.2.granule == y.2.granule)))

/-- The cases in which a target refuses a request (R441): a host completion, a link between dies. An uncorrectable error
under an atomic is found when it is performed. -/
def State.mayRefuse (s : State) (r : MemReq) : Bool :=
  r.op.locs.any (fun l => isHost l || !inScope r.col 2 s.capacity l)

/-- What the target does with an atomic. (Log 31: DEDUCED, unsafe) -/
def State.performAtomic (s : State) (op : ReqOp) : ReqSt × State :=
  match op with
  | .amo a o b cas =>
    if s.errAt a 8 = 2 then (.refused, s)
    else
      let r := (s.countRead op.locs).amoAt a o b cas
      (.done (r.1.setWidth 512) 0 0, r.2)
  | .pbarr a _ c =>
    if s.errAt a 16 = 2 then (.refused, s)
    else
      let r := (s.countRead op.locs).pbarrAt a c
      (.done r.1 0 0, r.2)
  | _ => (.sent, s)

/-- A value that a load or atomic delivers from within the state backing region is open (R332). -/
def State.openValue (s : State) (n : Nat) : VWord × State :=
  (BitVec.ofNat 512 (leNat (freeBytes s.nextFree n)), { s with nextFree := s.nextFree + n })

/-- The outcome of a load whose bytes have all been bound. -/
def State.bound (s : State) (r : MemReq) (got : List (Nat × Byte)) : ReqSt × State :=
  match r.op with
  | .load l fin win tgt scale imm =>
    if s.inBacking r.col r.va.toNat l then
      let v := s.openValue 64
      (.done v.1 0 0, v.2)
    else
      let x := loadFin { fin := fin, win := win, tgt := tgt, scale := scale, imm := imm }
        ((List.range l.length).map (fun i => ((got.find? (fun g => g.1 == i)).map (·.2)).getD 0))
      (.done x.w x.fl x.ftz, s)
  | _ => (.done 0 0 0, s)

/-- The bytes that a store writes at the places of a piece. -/
def ReqOp.bytesAt (op : ReqOp) (x : List (Nat × Loc)) : List ByteW :=
  match op with
  | .store ws => x.filterMap (fun y => ws[y.1]?)
  | _ => []

/-- A piece of a request is performed at its target, the whole of an atomic. Writes within the state backing region corrupt
the states they meet (R332). (Log 31: DEDUCED, unsafe) -/
def State.performAt (s : State) (r : MemReq) (x : List (Nat × Loc)) : MemReq × State :=
  let locs := x.map (·.2)
  let fin (got : List (Nat × Byte)) (p : ReqSt × State) : MemReq × State :=
    ({ r with st := p.1, got := got, when := (s.col r.col).cycle }, p.2)
  match r.op with
  | .load _ _ _ _ _ _ =>
    match s.badLoc locs with
    | some y => fin r.got (.bad (errCause y).1 (errCause y).2, s)
    | none =>
      let got := r.got ++ x.map (fun y => (y.1, s.rd y.2))
      let s := s.countRead locs
      if x.length = r.left.length then fin got (s.bound r got) else ({ r with got := got }, s)
  | .store _ =>
    let t := s.wrAll (r.op.bytesAt x)
    let t := if s.inBacking r.col r.va.toNat locs then t.corrupt r.col locs else t
    let got := r.got ++ x.map (fun y => (y.1, 0))
    if x.length = r.left.length then fin got (.done 0 0 0, t) else ({ r with got := got }, t)
  | op =>
    let p := s.performAtomic op
    if p.1 == .refused || !s.inBacking r.col r.va.toNat locs then fin [] p
    else
      let v := p.2.openValue 8
      fin [] (.done v.1 0 0, v.2.corrupt r.col locs)

/-- MEMORY_REQUEST: all that is left of the n-th request, or one piece of it, is performed at its target; or the target refuses
the request (R441). -/
def evMemoryRequest (n : Nat) (k : Option Nat) (refuse : Bool) (s : State) : Option State :=
  match s.reqs[n]? with
  | some r =>
    let x := r.piece k
    if r.st ≠ .sent ∨ reqBlocked s.reqs n r.col x = true then none
    else if refuse then
      if s.mayRefuse r && r.got.isEmpty then some { s with reqs := setAt s.reqs n { r with st := .refused } } else none
    else
      let p := s.performAt r x
      some { p.2 with reqs := setAt s.reqs n p.1 }
  | none => none

/-- The register of a request is still pending in its bank: its firing has not ended. -/
def State.awaits (s : State) (r : MemReq) : Bool :=
  ((s.col r.col).bank r.band).pend.any (fun e => e.val == .await r.id) ||
  ((s.col r.col).bank 4).pend.any (fun e => e.val == .await r.id)

/-- A deferred trap of the firing that issued a request. -/
def State.deferReq (s : State) (r : MemReq) (cause path : Nat) (tval : Word) : State :=
  if s.awaits r then
    s.modCol r.col (fun c => (c.modFiring r.band (fun f => { f with deferred := f.deferred ++
      [{ ord := r.id, cause := cause, path := path, tval := tval, tepc := r.tepc, aw := r.aw }] })).cancelReq r.band r.id)
  else s

/-- What a read of a stalled wait has brought is there for its firing (R246). -/
def State.readWait (s : State) (r : MemReq) : State :=
  s.modCol r.col (fun c => c.modFiring r.band (fun f => { f with wait := f.wait.map (fun w =>
    if w.req = some r.id then { w with req := none, got := some (r.st, r.when) } else w) }))

/-- MEMORY_RESPONSE: the response of the n-th request binds its register (R225, R232), or brings the trap of an
uncorrectable read (R434) or of a barrier overrun (R244). -/
def evMemoryResponse (n : Nat) (s : State) : Option State :=
  match s.reqs[n]? with
  | some r =>
    match r.dst, r.st with
    | some _, .done w fl ftz =>
      let s' := { s with reqs := dropAt s.reqs n }.readWait r
      let overrun := match r.op with
        | .pbarr _ _ _ => w.getLsbD 64
        | _ => false
      let t := if overrun then
          s'.modCol r.col (fun c => c.modFiring r.band (fun f => if s.awaits r then { f with deferred := f.deferred ++
            [{ ord := r.id, cause := 0x18C, path := 1, tval := r.va, tepc := r.tepc, aw := r.aw }] } else f))
        else s'
      let w := match r.op with
        | .pbarr _ _ _ => w % BitVec.ofNat 512 (2 ^ 64)
        | _ => w
      some (t.modCol r.col (fun c => c.completeReq r.band r.id w fl ftz r.due))
    | some _, .bad cause tval => some (({ s with reqs := dropAt s.reqs n }.readWait r).deferReq r cause 2 tval)
    | _, _ => none
  | none => none

/-- ACKNOWLEDGEMENT: the n-th request, a performed store, is acknowledged (R110). -/
def evAcknowledgement (n : Nat) (s : State) : Option State :=
  match s.reqs[n]? with
  | some r =>
    match r.dst, r.st with
    | none, .done _ _ _ => some { s with reqs := dropAt s.reqs n }
    | _, _ => none
  | none => none

/-- REFUSAL (R441): a refused store is reported as 0x10B and counts as acknowledged (R155); a refused load or atomic
traps with 0x10C at its firing's next group boundary, its register unwritten. -/
def evRefusal (n : Nat) (s : State) : Option State :=
  match s.reqs[n]? with
  | some r =>
    if r.st = .refused then
      let s' := { s with reqs := dropAt s.reqs n }
      match r.dst with
      | none => some (s'.reportOnly 0x10B r.col r.va r.tmsg r.tepc r.rseq)
      | some _ => some ((s'.readWait r).deferReq r 0x10C 1 r.va)
    else none
  | none => none

def execMemoryRequest (n : Nat) (refuse : Bool) (s : State) : Out := event (evMemoryRequest n none refuse) s
def execMemoryResponse (n : Nat) (s : State) : Out := event (evMemoryResponse n) s
def execAcknowledgement (n : Nat) (s : State) : Out := event (evAcknowledgement n) s
def execRefusal (n : Nat) (s : State) : Out := event (evRefusal n) s

end Sys2Proof.Machine
end

