-- ==== Sys2Proof/Machine/Firing.lean ====
section
/-!
DEFINITION. Handlers, selection, the start, resumption, commit and abort of firings (R33 to R58), end-of-pass markers,
short passes and snapshot captures at a column (R79 to R89), and what falls due for a firing (R435).
-/
namespace Sys2Proof.Machine

/-! ## The handler table -/

/-- The valid entry of handler h, by the phase of its slot (R55). -/
def HSlot.active (k : HSlot) : Option Entry := if k.phase then k.e1 else k.e0
def Column.entry (c : Column) (h : Nat) : Option Entry := (sget HSlot.empty c.handlers h).active
def Column.entries (c : Column) : List Entry := c.handlers.filterMap (fun k => k.2.active)

/-- The entry that declares input channel ch. -/
def Column.owner (c : Column) (ch : Nat) : Option Entry := c.entries.find? (fun e => (e.inOf ch).isSome)

/-- The template whose trigger channel is ch. -/
def Column.trigOf (c : Column) (ch : Nat) : Option (Nat × Template) := c.templates.find? (fun t => t.2.trig == ch)

def Entry.band (e : Entry) : Nat := e.level / 12
def Entry.paced (e : Entry) : List OutDecl := e.outs.filter (fun o => o.count != 0)

/-- The join whose snapshot handler is h, and its open capture (R85). -/
def Column.snapOf (c : Column) (h : Nat) : Option (Join × Capture) :=
  c.joins.findSome? (fun j => if j.sidx = h then j.cap.map (fun k => (j, k)) else none)

/-- A snapshot handler has been fired by its join and has not committed. (Log 82: DEDUCED, unsafe) -/
def Column.snapDue (c : Column) (h : Nat) : Bool :=
  match c.snapOf h with
  | some (_, k) => k.fired && !k.committed
  | none => false

/-! ## Credit (R37, R80) -/

/-- An output of the graph of a tag: the column's own, or that of a graph that a splice has replaced (R101). -/
def Column.outOf (c : Column) (tag k : Nat) : Output :=
  if tag = c.ctx then c.out k else sget Output.empty (sget [] c.prevOuts tag) k
def Column.modOutOf (c : Column) (tag k : Nat) (f : Output → Output) : Column :=
  if tag = c.ctx then c.modOut k f
  else if c.prevOuts.any (fun x => x.1 == tag) then
    { c with prevOuts := sput [] c.prevOuts tag (sput Output.empty (sget [] c.prevOuts tag) k (f (c.outOf tag k))) }
  else c

/-- A marker copy that waits for credit on an output. -/
def Inj.waits (tag k : Nat) : Inj → Bool
  | .marker m _ false => m.ctx == tag && outKey m.dest m.chan == k
  | _ => false

def payFirst (tag k : Nat) : List Inj → List Inj
  | [] => []
  | .marker m sc paid :: t =>
    if Inj.waits tag k (.marker m sc paid) then .marker m sc true :: t else .marker m sc paid :: payFirst tag k t
  | i :: t => i :: payFirst tag k t

/-- Credit received on an output: waiting marker copies take it first, one slot each. `fuel` bounds their number. -/
def Column.settle (c : Column) (tag k : Nat) : Nat → Column
  | 0 => c
  | fuel + 1 =>
    if 0 < (c.outOf tag k).credit ∧ c.inj.any (Inj.waits tag k) = true then
      { c.modOutOf tag k (fun o => { o with credit := o.credit - 1 }) with inj := payFirst tag k c.inj }.settle tag k fuel
    else c

def Column.gain (c : Column) (tag k n : Nat) : Column :=
  (c.modOutOf tag k (fun o => { o with credit := o.credit + n })).settle tag k c.inj.length

/-! ## Runnable handlers and selection (R35, R36, R51) -/

/-- The task counter word of an entry (Table 3-8). -/
def State.counter (s : State) (p : Nat) (e : Entry) : Nat := s.rdNat (.ls p e.counter) 8
/-- Log 82: DEDUCED, unsafe. -/
def counterReady (w : Nat) : Bool := decide (sx 32 w ≤ 0) && !bitN w 62

/-- Every paced output has credit for its declared count, and no marker copy waits on it. -/
def Column.credited (c : Column) (e : Entry) : Bool :=
  e.paced.all (fun o => decide (o.count ≤ (c.out (outKey o.dest o.ch)).credit) && !c.inj.any (Inj.waits c.ctx (outKey o.dest o.ch)))

/-- Handles that the declared SAG set-up enables. -/
def Entry.handles (e : Entry) : List Nat := e.saga.filterMap sagHandle

def State.runnable (s : State) (p h : Nat) : Bool :=
  let c := s.col p
  match c.entry h with
  | none => false
  | some e =>
    c.region != 0 && decide (c.startAt ≤ s.pktCycle) && !c.hold.getLsbD h && c.credited e &&
    (List.range 4).all (fun b => (c.firing b).elim true (fun f => f.ent.hidx != h)) &&
    e.handles.all (fun n => (c.handle n).valid) &&
    (if e.task then counterReady (s.counter p e) || c.snapDue h
     else e.ins.all (fun i => decide (i.count ≤ (c.chan i.ch).untaken.length)))

/-- eff(h): the effective level of a handler's next firing. -/
def Column.eff (c : Column) (e : Entry) : Nat := min (e.level + b2n (c.boost.getLsbD e.hidx)) (12 * e.band + 11)

inductive Sel where
  | resume (b : Nat)
  | keep
  | start (h : Nat)
  | idle
  deriving DecidableEq, Repr

/-- rr(L): the round-robin pointer of a level, 63 at reset. -/
def Column.rrOf (c : Column) (l : Nat) : Nat := sget 63 c.rr l

/-- The handler of band b that starts, if any is runnable there. -/
def State.pick (s : State) (p b : Nat) : Option Nat :=
  let c := s.col p
  let hs := (List.range 64).filter (fun h => s.runnable p h && ((c.entry h).elim false (fun e => e.band == b)))
  let lv (h : Nat) : Nat := (c.entry h).elim 0 c.eff
  let top := hs.foldl (fun m h => max m (lv h)) 0
  ((List.range 64).map (fun i => (c.rrOf top + 1 + i) % 64)).find? (fun h => hs.contains h && lv h == top)

/-- The firing is stopped: its access has not been retried, a command it waits for is parked still, or it is held by the
debugger. -/
def Column.parked (c : Column) (f : Firing) : Bool :=
  match f.park with
  | none => false
  | some (.engine ids) => ids.any (fun i => c.parkedIds.contains i)
  | some _ => true

/-- R51 for the bands listed, highest first. A parked firing's band counts as having nothing runnable (R439); so does
one whose firing is ending by abort. -/
def State.selectFrom (s : State) (p : Nat) : List Nat → Sel
  | [] => .idle
  | b :: t =>
    let c := s.col p
    match c.firing b with
    | some f =>
      if c.running = some b then .keep
      else match f.phase with
        | .abort _ _ _ _ _ => s.selectFrom p t
        | _ => if c.parked f then s.selectFrom p t else .resume b
    | none => match s.pick p b with
      | some h => .start h
      | none => s.selectFrom p t

def State.select (s : State) (p : Nat) : Sel := if (s.col p).inTrap then .keep else s.selectFrom p [3, 2, 1, 0]

/-! ## Start and resumption (R38, R39, R48, R49) -/

/-- The trigger among the selected messages: the one delivered last; in one cycle, the one on the input declared first. -/
def Column.trigger (c : Column) (e : Entry) : Option Item :=
  e.ins.foldl (fun (m : Option Item) i =>
    match ((c.chan i.ch).untaken.take i.count).getLast? with
    | none => m
    | some x => match m with
      | none => some x
      | some y => if y.tick < x.tick then some x else some y) none

/-- SYS.TMSG (Table 2-3). -/
def Msg.tmsg (m : Msg) (h : Nat) : Word := w64 (m.seq + 2 ^ 16 * m.chan + 2 ^ 23 + 2 ^ 24 * h)

/-- Log 38: DEDUCED, unsafe. -/
def Column.tmsgOf (c : Column) (e : Entry) : Word :=
  if e.task then
    match c.snapOf e.hidx with
    | some (_, k) => match (c.chan k.ch).headMarker with
      | some i => if k.fired && !k.committed then i.msg.tmsg e.hidx else w64 (2 ^ 24 * e.hidx)
      | none => w64 (2 ^ 24 * e.hidx)
    | none => w64 (2 ^ 24 * e.hidx)
  else ((c.trigger e).map (fun i => i.msg.tmsg e.hidx)).getD (w64 (2 ^ 24 * e.hidx))

/-- The issue slot is left: the engine commands of the firing, matrix commands among them, go on (R439, R444). -/
def Column.setAside (c : Column) : Column := { c with running := none }

/-- The firing of band `b` takes the issue slot: the matrix commands of firings of lower bands, the one that runs and any that
is parked, go to their save areas (R48, R281). -/
def Column.preempt (c : Column) (b : Nat) : Column := ((List.range b).foldl Column.saveMatrix c).setAside

/-- The bits of a word of flags, set or cleared at index h. -/
def setBit64 (w : Word) (h : Nat) (v : Bool) : Word :=
  if v then w ||| w64 (2 ^ h) else w &&& ~~~ (w64 (2 ^ h))

/-- Entry state of a firing of entry e in its band. (Log 24: DEDUCED, unsafe) -/
def Column.begin (c : Column) (e : Entry) (trig : Word) : Column :=
  let b := e.band
  let f : Firing :=
    { ent := e, level := c.eff e, boost := c.boost.getLsbD e.hidx, refire := c.refire.getLsbD e.hidx, trig := trig,
      spent := 0, begun := false, pc := e.entry, jump := some 0, last := e.entry, sent := [], sends := [],
      phase := .run, deferred := [], park := none, wait := none, orders := [], lwait := none, drain := false,
      stepMode := c.stepping.getLsbD e.hidx, snap := e.task && c.snapDue e.hidx, trapFrom := 0 }
  let k := c.bank b
  let sags (l : List Word) : List (Nat × Word) := (List.range l.length).foldl (fun m i => sput 0 m i (l.getD i 0)) []
  let k := (k.writeX 1 (w64 e.arg)).writeX 2 trig
  let k := { k with loop := none, pend := [], saga := sags e.saga, sagb := sags e.sagb, saved := [], firing := some f }
  let lv := c.eff e
  let c1 := (c.setBank b k).modBank 4 (fun k => { k with loop := none })
  let c := { c1 with running := some b, boost := setBit64 c.boost e.hidx false,
                                refire := setBit64 c.refire e.hidx false, rr := sput 63 c.rr lv e.hidx,
                                starve := sput 0 c.starve e.hidx 0 }
  let c := e.paced.foldl (fun c o => c.modOut (outKey o.dest o.ch) (fun x => { x with credit := x.credit - o.count })) c
  e.saga.foldl (fun c w => c.useHandle true (sagHandle w)) c

/-- The region's first firing records the package cycle (Table 17-6). -/
def State.markStart (s : State) (p : Nat) : State :=
  { s with regions := s.regions.map (fun r =>
      if r.id = (s.col p).region ∧ r.start = none then { r with start := some s.pktCycle } else r) }

/-- The stop report of a firing in step mode (R444): SYS.TVAL, and the mask of pending x registers. -/
def Column.stopTval (c : Column) (b : Nat) (f : Firing) : Word :=
  let mq := ((c.mrun.toList ++ c.mq ++ (c.bank b).saved).filter (fun m => decide (m.band = b))).length
  let cq := ((c.copyq ++ c.csusp ++ c.crun.toList).filter (fun m => decide (m.band = b) && m.tmpl.isNone)).length
  let kq := (c.kvq.filter (fun m => decide (m.band = b))).length
  let sq := (c.ssq.filter (fun m => decide (m.band = b))).length
  w64 (f.pc % 2 ^ 20 + 2 ^ 20 * (mq % 4) + 2 ^ 22 * (cq % 4) + 2 ^ 24 * (kq % 4) + 2 ^ 26 * (sq % 4) +
    2 ^ 28 * (f.sends.length % 32) + 2 ^ 33 * b2n (c.bank b).loop.isSome)

/-- A register is pending until its result's latency has ended, or its command or request has answered. -/
def Column.waitsFor (c : Column) (b n : Nat) : Bool :=
  (c.bank b).pend.any (fun e => e.reg == .x n && match e.val with
    | .known _ => decide (c.cycle < e.due)
    | .await _ => true)

def Column.pendMask (c : Column) (b : Nat) : Word :=
  w64 ((List.range 32).foldl (fun m n => m + (if c.waitsFor b n then 2 ^ n else 0)) 0)

/-- A debug stop (R444): cause 0x380 is reported and the firing is treated as parked. In the trap bank, which nothing
pre-empts (R50), it keeps the issue slot. (Log 43: DEDUCED, unsafe) -/
def State.debugStop (s : State) (p b : Nat) : State :=
  match (s.col p).firing b with
  | none => s
  | some f =>
    let c := s.col p
    let s := s.report { cause := 0x380, path := 3, col := p, ctx := c.ctx, rseq := 0, tval := c.stopTval b f,
                        tmsg := c.pendMask b, tepc := f.last }
    s.modCol p (fun c =>
      let c := if c.running = some b ∧ c.inTrap = false then c.setAside else c
      c.modFiring b (fun f => { f with park := some .stopped }))

/-- Something else falls due for the running firing at this boundary, which comes before a pre-emption (R435). -/
def Column.otherDue (c : Column) : Bool :=
  c.running.elim false (fun b => (c.firing b).elim false (fun f => !f.ending && (!f.deferred.isEmpty ||
    decide (f.ent.budget ≤ f.spent))))

/-- The bank of a started or resumed firing issues from the fourth cycle on (Table 2-2). (Log 13: DESIGN CHOICE,
unsafe) -/
def Column.switched (c : Column) : Column := c.later 4

/-- FIRING_START: selection starts a handler, pre-empting a firing of a lower band when nothing else falls due for it
(R435). -/
def evFiringStart (p : Nat) (s : State) : Option State :=
  let c := s.col p
  match s.select p with
  | .start h =>
    match c.entry h with
    | none => none
    | some e =>
      if c.otherDue then none
      else
        let trig := c.tmsgOf e
        let s := (s.setCol p ((c.preempt e.band).begin e trig).switched).markStart p
        some (if c.stepping.getLsbD h then s.debugStop p e.band else s)
  | _ => none

/-- FIRING_RESUME: a suspended firing goes on with its abandoned group; a wait counts again from its reissue (R247). -/
def evFiringResume (p : Nat) (s : State) : Option State :=
  match s.select p with
  | .resume b =>
    let again (f : Firing) : Firing := { f with wait := none, park := none }
    if (s.col p).otherDue then none
    else some (s.modCol p (fun c => { (((c.preempt b).restoreMatrix b).modFiring b again).switched with running := some b }))
  | _ => none

def execFiringStart (c : Nat) (s : State) : Out := event (evFiringStart c) s
def execFiringResume (c : Nat) (s : State) : Out := event (evFiringResume c) s

/-! ## Markers (R79 to R83) -/

/-- The outputs to which a marker on channel ch is copied: those its input declares, or the template's completion. -/
def Column.markerOuts (c : Column) (ch : Nat) : List Nat :=
  match c.owner ch with
  | some e => match e.inOf ch with
    | some i => (e.outs.filter (fun o => bitN i.markers o.ix)).map (fun o => outKey o.dest o.ch)
    | none => []
  | none => match c.trigOf ch with
    | some (_, t) => [t.doneKey]
    | none => []

/-- One copy of a marker in the injection queue, with a credit if the output is paced and has one. -/
def Column.markerCopy (c : Column) (p : Nat) (m : Msg) (k : Nat) : Column :=
  let r := c.stamp p (k / 128) (k % 128) m.kind m.len m.pay
  let o := c.out k
  let c := { r.1 with inj := r.1.inj ++ [Inj.marker r.2 o.scope (!o.paced)] }
  c.settle c.ctx k c.inj.length

/-- The marker at the head of channel ch passes: its slot is freed and its copies are queued. -/
def State.passMarker (s : State) (p ch : Nat) : State :=
  match ((s.col p).chan ch).headMarker with
  | none => s
  | some i =>
    let outs := (s.col p).markerOuts ch
    let s := s.freeItems p ch (fun x => x == i)
    s.modCol p (fun c =>
      let c := c.modChan ch (fun k => { k with gate := k.gate.map (fun g => (g.1, false)) })
      outs.foldl (fun c k => c.markerCopy p i.msg k) c)

/-- R81: messages ahead of a marker that can never make up a firing hold the handler. The report is made once for a
marker, and again when the hold has been cleared with the messages still there. (Log 128: DEDUCED, unsafe) -/
def State.shortPass (s : State) (p ch : Nat) : State :=
  let c := s.col p
  match c.owner ch with
  | none => s
  | some e => match e.inOf ch with
    | none => s
    | some i =>
      let k := c.chan ch
      let isShort := k.items.any (fun x => x.msg.isMarker) && decide (0 < k.untaken.length) &&
        decide (k.untaken.length < i.count) && !k.held
      if isShort = false then s.setCol p { c with short := c.short.filter (fun n => n != ch) }
      else if c.short.contains ch && c.hold.getLsbD e.hidx then s
      else (s.setCol p { c with hold := setBit64 c.hold e.hidx true,
                                short := ch :: c.short.filter (fun n => n != ch) }).reportOnly 0x281 p (w64 ch)

def State.shortPasses (s : State) (p : Nat) : State :=
  (s.col p).entries.foldl (fun s e => e.ins.foldl (fun s i => s.shortPass p i.ch) s) s

/-! ## Snapshots (R85 to R89) -/

/-- The snapshot identifier of a marker. -/
def Msg.snapId (m : Msg) : Nat := m.payNat 0 4

/-- The snapshot marker at the head of a channel. -/
def Chan.snapHead (k : Chan) : Option Item :=
  match k.headMarker with
  | some i => if i.msg.kind = 2 then some i else none
  | none => none

/-- The input channels of a join, and the join an input belongs to. -/
def Column.joinIns (c : Column) (j : Join) : List Nat := ((c.entry j.jidx).elim [] (·.ins)).map (·.ch)
def Column.joinOf (c : Column) (ch : Nat) : Option Join := c.joins.find? (fun j => (c.joinIns j).contains ch)

def Column.setJoin (c : Column) (j : Join) : Column :=
  { c with joins := c.joins.map (fun x => if x.jidx = j.jidx then j else x) }

/-- Heads that carry the capture's marker. -/
def Column.arrived (c : Column) (k : Capture) (ch : Nat) : Bool :=
  match (c.chan ch).snapHead with
  | some i => i.msg.snapId == k.snapId
  | none => false

/-- The capture of a join: one opens when a first marker reaches a head. -/
def Column.openCapture (c : Column) (now : Nat) (j : Join) : Option Capture :=
  match j.cap with
  | some k => some k
  | none => ((c.joinIns j).findSome? (fun ch => ((c.chan ch).snapHead).map (fun i => (ch, i)))).map (fun h =>
      { snapId := h.2.msg.snapId, ch := h.1, since := now, ready := false, fired := false, unal := false,
        committed := false, awaited := [], units := 0, ovf := false })

/-- A capture opens when the first marker reaches a head, and is aligned when all have within the limit (R86). (Log
83: DEDUCED, unsafe) -/
def State.openCaptures (s : State) (p : Nat) : State :=
  if (s.col p).joins.isEmpty then s
  else s.modCol p (fun c => c.joins.foldl (fun c j =>
    match c.openCapture s.pktCycle j with
    | none => c
    | some k =>
      let all := (c.joinIns j).all (c.arrived k) && decide (s.pktCycle < k.since + j.limit)
      c.setJoin { j with cap := some { k with ready := k.ready || all } }) c)

/-- The snapshot record (Table 3-7) of a capture. -/
def State.writeRecord (s : State) (p : Nat) (j : Join) (k : Capture) : State :=
  let done := k.fired && (!k.unal || k.awaited.isEmpty)
  s.wrNat (.ls p j.area) 64 (k.snapId + 2 ^ 32 * b2n done + 2 ^ 33 * b2n k.unal + 2 ^ 34 * b2n k.ovf +
    2 ^ 64 * k.units + 2 ^ 80 * (j.units - 1))

/-- A join of a column by its handler index. -/
def Column.join (c : Column) (j : Nat) : Option Join := c.joins.find? (fun x => decide (x.jidx = j))

/-- SNAPSHOT_ALIGNED_CAPTURE: within the limit the marker has come to stand at every head; the snapshot handler is fired. -/
def evSnapshotAligned (p jx : Nat) (s : State) : Option State :=
  let c := s.col p
  match c.join jx with
  | none => none
  | some j => match j.cap with
    | none => none
    | some k =>
      if !k.fired && k.ready && (c.joinIns j).all (c.arrived k) then
        let k := { k with fired := true }
        some ((s.setCol p (c.setJoin { j with cap := some k })).writeRecord p j k)
      else none

/-- ALIGNMENT_LIMIT_EXPIRY: the limit has passed before all markers were at their heads; the snapshot handler is fired
unaligned. (Log 83: DEDUCED, unsafe) -/
def evAlignmentExpiry (p jx : Nat) (s : State) : Option State :=
  let c := s.col p
  match c.join jx with
  | none => none
  | some j => match j.cap with
    | none => none
    | some k =>
      if !k.fired && !k.ready && decide (k.since + j.limit ≤ s.pktCycle) then
        let wait := (c.joinIns j).filter (fun ch => !(c.chan ch).items.any (fun i => i.msg.kind == 2 && i.msg.snapId == k.snapId))
        let k := { k with fired := true, unal := true, awaited := wait }
        some ((s.setCol p (c.setJoin { j with cap := some k })).writeRecord p j k)
      else none

def execSnapshotAlignedCapture (c j : Nat) (s : State) : Out := event (evSnapshotAligned c j) s
def execAlignmentLimitExpiry (c j : Nat) (s : State) : Out := event (evAlignmentExpiry c j) s

/-- The capture closes once its snapshot handler has committed and no input still has its marker to come or to pass. -/
def Column.closeCapture (c : Column) (jx : Nat) : Column :=
  match c.join jx with
  | none => c
  | some j => match j.cap with
    | none => c
    | some k =>
      if k.committed && k.awaited.isEmpty &&
          !(c.joinIns j).any (fun ch => (c.chan ch).items.any (fun i => i.msg.kind == 2 && i.msg.snapId == k.snapId)) then
        c.setJoin { j with cap := none }
      else c

/-- The markers at the heads that pass when the snapshot handler commits: no firing holds a take on their channels (R80); the
others pass later. -/
def Column.passable (c : Column) (j : Join) (k : Capture) : List Nat :=
  (c.joinIns j).filter (fun ch => c.arrived k ch && !(c.chan ch).held)

/-- The commit of a snapshot handler's firing: the markers at the heads pass. -/
def State.snapCommit (s : State) (p h : Nat) : State :=
  match (s.col p).snapOf h with
  | none => s
  | some (j, k) =>
    if k.fired && !k.committed then
      let c := (s.col p).setJoin { j with cap := some { k with committed := true } }
      let s := (c.passable j k).foldl (fun s ch => s.passMarker p ch) (s.setCol p c)
      (s.modCol p (fun c => c.closeCapture j.jidx)).openCaptures p
    else s

/-- Marker copies the commit of a snapshot firing puts into the injection queue; the firing's own takes end with it. -/
def Column.snapCopies (c : Column) (h : Nat) : Nat :=
  match c.snapOf h with
  | some (j, k) =>
    if k.fired && !k.committed then
      (c.passable j k).foldl (fun n ch => n + (c.markerOuts ch).length) 0
    else 0
  | none => 0

/-- MARKER_PASS (R80): a marker at a head, with no take on its channel, that gates no swap and waits for no capture. -/
def evMarkerPass (p ch : Nat) (s : State) : Option State :=
  let c := s.col p
  let k := c.chan ch
  match k.headMarker with
  | none => none
  | some i =>
    let gated := i.msg.kind == 1 && k.gate.any (fun g => !g.2)
    let busy := match c.trigOf ch with
      | some (_, t) => t.running.isSome
      | none => (c.owner ch).isNone
    let snapWait := if i.msg.kind = 2 then
        match c.joinOf ch with
        | none => false
        | some j => match j.cap with
          | none => true
          | some q => !(q.committed && i.msg.snapId == q.snapId)
      else false
    if k.held || gated || busy || snapWait || decide (32 < c.inj.length + (c.markerOuts ch).length) then none
    else
      let s := s.passMarker p ch
      let s := match c.joinOf ch with
        | some j => s.modCol p (fun c => c.closeCapture j.jidx)
        | none => s
      some ((s.shortPass p ch).openCaptures p)

def execMarkerPass (c ch : Nat) (s : State) : Out := event (evMarkerPass c ch) s

/-! ## Commit (R42, R105) -/

/-- Results in flight of a bank that ends its firing are written. (Log 46: DEDUCED, unsafe) -/
def Column.flush (c : Column) (b : Nat) : Column :=
  let ps := (c.bank b).pend
  let c := ps.foldl (fun (c : Column) e => match e.val with
    | .known w => (c.modBank b (fun k => k.writeReg e.reg w)).raise e.flags e.ftz
    | .await _ => c) c
  c.modBank b (fun k => { k with pend := [] })

/-- The bank after its firing has ended: no firing, no LOOP, the SAGs' in-use counts given back (R124). (Log 46:
DEDUCED, unsafe) -/
def Column.endFiring (c : Column) (b : Nat) : Column :=
  let c := c.flush b
  let c := c.modBank 4 (fun k => if c.inTrap && c.running == some b then { k with pend := [] } else k)
  let c := ((c.bank b).saga).foldl (fun c e => c.useHandle false (sagHandle e.2)) c
  let c := c.modBank b (fun k => { k with loop := none, saga := [], sagb := [], saved := [], firing := none })
  if c.running = some b then { c with running := none, inTrap := false } else c

/-- The task counter at commit: RELOAD is added, saturating, or DONE set. (Log 82: DEDUCED, unsafe) -/
def counterCommit (w : Nat) : Nat :=
  let reload := fieldN w 55 32
  if reload = 0 then (if bitN w 62 then w else w + 2 ^ 62)
  else w / 2 ^ 32 * 2 ^ 32 + um 32 (satS 32 (sx 32 w + reload))

/-- A load or atomic of band b of column p has not completed. -/
def State.loadsOut (s : State) (p b : Nat) : Bool :=
  s.reqs.any (fun r => decide (r.col = p) && decide (r.band = b) && r.dst.isSome)

/-- A send-buffer entry becomes an injection-queue entry. -/
def Column.queueSend (c : Column) (p : Nat) (trig : Word) (x : Send) : Column :=
  match x with
  | .msg dest ch kind len pay =>
    let r := c.stamp p dest ch kind len pay
    { r.1 with inj := r.1.inj ++ [Inj.msg r.2 (c.out (outKey dest ch)).scope] }
  | .store lines tepc rel id => { c with inj := c.inj ++ [Inj.store lines tepc trig rel c.ctx id] }

/-- A commit of a handler without a present output counts towards ENDCNT (R425). -/
def State.countSink (s : State) (p : Nat) (e : Entry) : State :=
  if e.outs.isEmpty then
    { s with regions := s.regions.map (fun r => if r.id = (s.col p).region then { r with commits := r.commits + 1 } else r) }
  else s

/-- Step 2 of END: everything in one cycle. -/
def State.commitNow (s : State) (p b : Nat) (f : Firing) : State :=
  let e := f.ent
  let s := s.modCol p (fun c => f.sends.foldl (fun c x => c.queueSend p f.trig x) c)
  let s := e.ins.foldl (fun s i => s.freeItems p i.ch (fun x => x.taken == some b)) s
  let s := s.modCol p (fun c => e.paced.foldl (fun c o => c.gain c.ctx (outKey o.dest o.ch) (o.count - f.sentOn o.ch)) c)
  let s := if e.task then s.wrNat (.ls p e.counter) 8 (counterCommit (s.counter p e)) else s
  let s := (s.modCol p (fun c => c.endFiring b)).countSink p e
  let s := if f.snap then s.snapCommit p e.hidx else s
  ((s.orphanLse p b).shortPasses p).openCaptures p

/-- FIRING_COMMIT: END's drain has ended. A firing whose command is parked parks here (R328, R439). -/
def evFiringCommit (p b : Nat) (s : State) : Option State :=
  let c := s.col p
  match c.firing b with
  | none => none
  | some f =>
    if c.running ≠ some b ∨ f.phase ≠ .commit ∨ f.deferred ≠ [] then none
    else if (c.endIds b).any (fun i => c.parkedIds.contains i) then
      let ids := (c.endIds b).filter (fun i => c.parkedIds.contains i)
      some (s.modCol p (fun c => c.setAside.modFiring b (fun f => { f with park := some (.engine ids) })))
    else if c.endIds b ≠ [] ∨ s.loadsOut p b = true ∨ 32 < c.inj.length + f.sends.length + c.snapCopies f.ent.hidx then none
    else some (s.commitNow p b f)

def execFiringCommit (c b : Nat) (s : State) : Out := event (evFiringCommit c b) s

/-! ## Abort (R43, R46) -/

/-- Causes that abort without a hold and without a report (R433). (Log 30: DEDUCED, unsafe) -/
def silentCause (cause : Nat) : Bool := cause == 0x18D || cause == 0x18E

/-- FIRING_ABORT: the firing's commands have completed; takes, credit and the send buffer go back, the handler is held, and
the trap is reported. (Log 29: DEDUCED, unsafe) -/
def evFiringAbort (p b : Nat) (s : State) : Option State :=
  let c := s.col p
  match c.firing b with
  | none => none
  | some f => match f.phase with
    | .abort cause path tval tepc hold =>
      if c.endIds b ≠ [] then none
      else
        let e := f.ent
        let give (k : Chan) : Chan :=
          { k with items := k.items.map (fun i => if i.taken = some b then { i with taken := none } else i) }
        let c := e.ins.foldl (fun c i => c.modChan i.ch give) c
        let c := e.paced.foldl (fun c o => c.gain c.ctx (outKey o.dest o.ch) o.count) c
        let c := { c.endFiring b with tmsg := f.trig, hold := if hold then setBit64 c.hold e.hidx true else c.hold }
        let s := (s.setCol p c).orphanLse p b
        if silentCause cause then some s
        else
          let s := s.report { cause := cause, path := path, col := p, ctx := c.ctx, rseq := 0, tval := tval, tmsg := f.trig,
                              tepc := tepc }
          some (if path = 2 then s.journal 0 cause p false tval else s)
    | _ => none

def execFiringAbort (c b : Nat) (s : State) : Out := event (evFiringAbort c b) s

/-! ## What falls due (R52, R53, R55, R249, R435) -/

/-- WATCHDOG_EXPIRY: the running firing's count has reached its budget. -/
def evWatchdog (p b : Nat) (s : State) : Option State :=
  let c := s.col p
  match c.firing b with
  | none => none
  | some f => match f.phase with
    | .abort _ _ _ _ _ => none
    | _ =>
      if c.running = some b ∧ f.ent.budget ≤ f.spent then
        some (s.setCol p (c.beginAbort b 0x180 1 (w64 (f.pc % 2 ^ 20)) f.pc false true))
      else none

/-- STARVATION_BOOST: handler h has been runnable for 65,536 cycles without starting a firing. -/
def evStarvation (p h : Nat) (s : State) : Option State :=
  let c := s.col p
  if 65536 ≤ sget 0 c.starve h ∧ c.boost.getLsbD h = false then
    some (s.setCol p { c with boost := setBit64 c.boost h true })
  else none

/-- The deferred trap that is due first: the one of the oldest issuing group. -/
def oldest : List DTrap → Option DTrap
  | [] => none
  | d :: t => match oldest t with
    | none => some d
    | some e => if d.ord ≤ e.ord then some d else some e

/-- The deferred trap that may be taken: its firing runs and is not ending by abort; in the trap bank it is one of a word that
the trap bank has issued (R50). (Log 44: DEDUCED, unsafe) -/
def State.dueTrap (s : State) (p b : Nat) : Option DTrap :=
  let c := s.col p
  match c.firing b with
  | none => none
  | some f => match f.phase with
    | .abort _ _ _ _ _ => none
    | _ => if c.running = some b ∧ f.spent < f.ent.budget then
        oldest (if c.inTrap then f.deferred.filter (fun d => decide (f.trapFrom ≤ d.ord)) else f.deferred)
      else none

/-- The trap is taken at the group boundary; the others stay pending. (Log 44: DEDUCED, unsafe) -/
def State.takeDue (s : State) (p b : Nat) (d : DTrap) : State :=
  let s := s.modCol p (fun c => c.modFiring b (fun f => { f with
    deferred := f.deferred.filter (fun x => x != d), phase := .run, wait := none }))
  { { s with cur := p }.takeTrap d.cause d.tval (d.path == 0) d.tepc d.aw with cur := s.cur }

/-- DEFERRED_TRAP (R278, R307, R434, R435). (Log 44: DEDUCED, unsafe) -/
def evDeferredTrap (p b : Nat) (s : State) : Option State := (s.dueTrap p b).map (s.takeDue p b)

/-- TRAP_BANK_ENTRY (R50): the trap due at this boundary takes the local path. -/
def evTrapBankEntry (p : Nat) (s : State) : Option State :=
  match s.dueTrap p (s.col p).band with
  | some d => if d.path = 0 ∧ (s.col p).inTrap = false ∧ (s.col p).tvec.getLsbD 20 = true then some (s.takeDue p (s.col p).band d) else none
  | none => none

/-- EMPTY_ENTRY_TIMEOUT: a message has waited 4096 cycles for an entry that is not there. The report is made once for a
channel until it is configured again. (Log 129: DESIGN CHOICE, unsafe) -/
def evEmptyEntry (p ch : Nat) (s : State) : Option State :=
  let c := s.col p
  match (c.chan ch).items.head? with
  | none => none
  | some i =>
    if (c.owner ch).isSome = true ∨ (c.trigOf ch).isSome = true ∨ c.emptyRep.contains ch = true ∨
        s.pktCycle < i.tick + 4096 then none
    else some ((s.setCol p { c with emptyRep := ch :: c.emptyRep }).reportOnly 0x187 p (w64 ch))

/-- REGISTER_WRITEBACK: the n-th pending result of bank b is due and is written. -/
def evWriteback (p b n : Nat) (s : State) : Option State := ((s.col p).retireAt b n).map (s.setCol p)

def execWatchdogExpiry (c b : Nat) (s : State) : Out := event (evWatchdog c b) s
def execStarvationBoost (c h : Nat) (s : State) : Out := event (evStarvation c h) s
def execDeferredTrap (c b : Nat) (s : State) : Out := event (evDeferredTrap c b) s
def execTrapBankEntry (c : Nat) (s : State) : Out := event (evTrapBankEntry c) s
def execEmptyEntryTimeout (c ch : Nat) (s : State) : Out := event (evEmptyEntry c ch) s
def execRegisterWriteback (c b n : Nat) (s : State) : Out := event (evWriteback c b n) s

end Sys2Proof.Machine
end

