-- ==== Sys2Proof/Machine/Vector.lean ====
section
/-!
DEFINITION. Vector instructions: integer and floating arithmetic, functions, masks, selection and movement, reductions
and scans, compensated sums, conversion (R264 to R276).
-/
namespace Sys2Proof.Machine

/-! ## Vector integer (R264, Table 9-6); f takes the lane width -/

/-- A shift count: the lane modulo the width. -/
def shw (w : Nat) (y : Int) : Nat := (y % w).toNat

/-- A bitwise operation on lanes read as sint(w). -/
def bitwise (f : Nat → Nat → Nat) (w : Nat) (x y : Int) : Int := f (um w x) (um w y)

def execVadd (d a b : BitVec 5) (t : BitVec 3) (s : State) : Out := opVVVi 2 (fun _ x y => x + y) d a b t s
def execVsub (d a b : BitVec 5) (t : BitVec 3) (s : State) : Out := opVVVi 2 (fun _ x y => x - y) d a b t s
def execVadds (d a b : BitVec 5) (t : BitVec 3) (s : State) : Out := opVVVi 2 (fun w x y => satS w (x + y)) d a b t s
def execVsubs (d a b : BitVec 5) (t : BitVec 3) (s : State) : Out := opVVVi 2 (fun w x y => satS w (x - y)) d a b t s
def execVmul (d a b : BitVec 5) (t : BitVec 3) (s : State) : Out := opVVVi 4 (fun _ x y => x * y) d a b t s
def execVmulh (d a b : BitVec 5) (t : BitVec 3) (s : State) : Out :=
  opVVVi 4 (fun w x y => x * y / (2 ^ w : Nat)) d a b t s
def execVmin (d a b : BitVec 5) (t : BitVec 3) (s : State) : Out := opVVVi 2 (fun _ x y => min x y) d a b t s
def execVmax (d a b : BitVec 5) (t : BitVec 3) (s : State) : Out := opVVVi 2 (fun _ x y => max x y) d a b t s
def execVand (d a b : BitVec 5) (t : BitVec 3) (s : State) : Out := opVVVi 2 (bitwise (· &&& ·)) d a b t s
def execVor (d a b : BitVec 5) (t : BitVec 3) (s : State) : Out := opVVVi 2 (bitwise (· ||| ·)) d a b t s
def execVxor (d a b : BitVec 5) (t : BitVec 3) (s : State) : Out := opVVVi 2 (bitwise (· ^^^ ·)) d a b t s
def execVshl (d a b : BitVec 5) (t : BitVec 3) (s : State) : Out :=
  opVVVi 2 (fun w x y => x * (2 ^ shw w y : Nat)) d a b t s
def execVshr (d a b : BitVec 5) (t : BitVec 3) (s : State) : Out :=
  opVVVi 2 (fun w x y => (um w x / 2 ^ shw w y : Nat)) d a b t s
def execVsar (d a b : BitVec 5) (t : BitVec 3) (s : State) : Out :=
  opVVVi 2 (fun w x y => x / (2 ^ shw w y : Nat)) d a b t s
def execVabs (d a : BitVec 5) (t : BitVec 3) (s : State) : Out :=
  s.need [.v a.toNat, .v d.toNat]
    (let w := laneW t.toNat
     (s.vres d t.toNat ((slanes t.toNat (s.V a)).map (fun x => um w (satS w x.natAbs))) 2).issued)

/-! ## Vector floating (R265, R260), VFMA (R266), functions (R267) -/

/-- A lane that is never rounded: its code, canonical for a NaN; no flag (R260). -/
def quietLane (t : BitVec 3) (x : Val) : Rnd := { (laneFmt t.toNat).round x 0 with fl := 0, ftz := 0 }

def execVfadd (d a b : BitVec 5) (t : BitVec 3) (s : State) : Out := opVVVf 8 (Val.add 0) d a b t s
def execVfsub (d a b : BitVec 5) (t : BitVec 3) (s : State) : Out := opVVVf 8 (fun x y => Val.add 0 x y.neg) d a b t s
def execVfmul (d a b : BitVec 5) (t : BitVec 3) (s : State) : Out := opVVVf 8 Val.mul d a b t s
def execVfdiv (d a b : BitVec 5) (t : BitVec 3) (s : State) : Out :=
  s.need [.v a.toNat, .v b.toNat, .v d.toNat] (s.onUnit unitVfdiv 8 (opVVVf 16 Val.div d a b t))
def execVfsqrt (d a : BitVec 5) (t : BitVec 3) (s : State) : Out :=
  s.need [.v a.toNat, .v d.toNat]
    (s.onUnit unitVfdiv 8 (opVVf 16 (fun x => (laneFmt t.toNat).fin x.sqrt 0) d a t))
def execVfmin (d a b : BitVec 5) (t : BitVec 3) (s : State) : Out := opVVVf 8 (fun x y => (x.min2 y, 0)) d a b t s
def execVfmax (d a b : BitVec 5) (t : BitVec 3) (s : State) : Out := opVVVf 8 (fun x y => (x.max2 y, 0)) d a b t s
def execVfabs (d a : BitVec 5) (t : BitVec 3) (s : State) : Out := opVVf 8 (fun x => quietLane t x.abs) d a t s
def execVfneg (d a : BitVec 5) (t : BitVec 3) (s : State) : Out := opVVf 8 (fun x => quietLane t x.neg) d a t s

def execVfmadd (d a b : BitVec 5) (t : BitVec 3) (s : State) : Out := opVFMA false false d a b t s
def execVfmsub (d a b : BitVec 5) (t : BitVec 3) (s : State) : Out := opVFMA false true d a b t s
def execVfnmadd (d a b : BitVec 5) (t : BitVec 3) (s : State) : Out := opVFMA true false d a b t s
def execVfnmsub (d a b : BitVec 5) (t : BitVec 3) (s : State) : Out := opVFMA true true d a b t s

/-- A function lane: the exact function value rounded RNE; a special case has only the flags of Table 6-7, and its zero
is exact. (Log 21: DEDUCED, unsafe) -/
def fnLane (f : Fmt) (e : Val × Nat) : Rnd :=
  let r := f.fnRound (f.round e.1 0)
  { r with fl := r.fl ||| e.2 }

def execVexp2 (d a : BitVec 5) (t : BitVec 3) (s : State) : Out := opVVf 10 (laneFmt t.toNat).exp2 d a t s
def execVrcp (d a : BitVec 5) (t : BitVec 3) (s : State) : Out :=
  opVVf 10 (fun x => fnLane (laneFmt t.toNat) x.recip) d a t s
def execVrsq (d a : BitVec 5) (t : BitVec 3) (s : State) : Out :=
  opVVf 10 (fun x => fnLane (laneFmt t.toNat) x.rsqrt) d a t s

/-- VHAD (R268): lane i with bit k clear takes a(i) + a(j), set a(j) − a(i), for j = i XOR 2^k. -/
def execVhad (d a k : BitVec 5) (t : BitVec 3) (s : State) : Out :=
  s.need [.v a.toNat, .v d.toNat]
    (let l := vlanes t.toNat (s.V a)
     let get := fun i => l[i]?.getD .nan
     let y := (List.range l.length).map (fun i =>
       let j := i ^^^ 2 ^ k.toNat
       if bitN i k.toNat then Val.add 0 (get j) (get i).neg else Val.add 0 (get i) (get j))
     if laneFp t.toNat then (s.vresF d t.toNat (y.map (fun e => (laneFmt t.toNat).fin e 0)) 2).issued
     else
       let w := laneW t.toNat
       (s.vres d t.toNat (y.map (fun e => um w (roundInt e.1 (-(2 ^ (w - 1) : Nat)) ((2 ^ (w - 1) : Nat) - 1) 1).val))
         2).issued)

/-! ## Masks (R269) -/

/-- The lanes' comparison (Table 9-7). -/
def vcmpLane (t c : Nat) (x y : Nat) : Bool :=
  let w := laneW t
  if laneFp t then ((laneFmt t).decode x).holds c ((laneFmt t).decode y)
  else match c with
    | 0 => x == y
    | 1 => x != y
    | 2 => decide (sx w x < sx w y)
    | 3 => decide (sx w x ≤ sx w y)
    | 4 => decide (x < y)
    | _ => decide (x ≤ y)

/-- A list of bits as a number, bit 0 first. -/
def bitsNat : List Bool → Nat
  | [] => 0
  | b :: t => b2n b + 2 * bitsNat t

def execVcmp (q : BitVec 3) (a b : BitVec 5) (t c : BitVec 3) (s : State) : Out :=
  s.need [.v a.toNat, .v b.toNat, .q q.toNat]
    (let w := laneW t.toNat
     let m := zipW (vcmpLane t.toNat c.toNat) (lanesOf w (s.V a)) (lanesOf w (s.V b))
     (s.result (.q q.toNat) (BitVec.ofNat 512 (bitsNat m)) 2).issued)

/-- Q(d) := f(Q(s1), Q(s2)). -/
def opQQQ (f : Word → Word → Word) (q r p : BitVec 3) (s : State) : Out :=
  s.need [.q r.toNat, .q p.toNat, .q q.toNat]
    (s.result (.q q.toNat) ((f (s.Q r) (s.Q p)).setWidth 512) 1).issued

def execQand (q r p : BitVec 3) (s : State) : Out := opQQQ (fun x y => x &&& y) q r p s
def execQor (q r p : BitVec 3) (s : State) : Out := opQQQ (fun x y => x ||| y) q r p s
def execQxor (q r p : BitVec 3) (s : State) : Out := opQQQ (fun x y => x ^^^ y) q r p s
def execQandn (q r p : BitVec 3) (s : State) : Out := opQQQ (fun x y => x &&& ~~~ y) q r p s
def execQsetx (q : BitVec 3) (a : BitVec 5) (s : State) : Out :=
  s.need [.x a.toNat, .q q.toNat] (s.result (.q q.toNat) ((s.X a).setWidth 512) 1).issued
def execQgetx (d : BitVec 5) (r : BitVec 3) (s : State) : Out :=
  s.need [.q r.toNat, .x d.toNat] (s.result (.x d.toNat) ((s.Q r).setWidth 512) 1).issued

/-! ## Selection and movement (R270 to R272): bits are moved unchanged -/

/-- The list of lanes chosen by a mask from two lists, lane i at bit i. -/
def selLanes (m : Word) (a b : List Nat) : List Nat :=
  zipW (fun (i : Nat) (p : Nat × Nat) => if maskBit m i then p.1 else p.2) (List.range a.length)
    (zipW (fun x y => (x, y)) a b)

def execVsel (d a b : BitVec 5) (t q : BitVec 3) (s : State) : Out :=
  s.need [.v a.toNat, .v b.toNat, .q q.toNat, .v d.toNat]
    (let w := laneW t.toNat
     (s.vres d t.toNat (selLanes (s.Q q) (lanesOf w (s.V a)) (lanesOf w (s.V b))) 1).issued)

def execVbcastX (d a : BitVec 5) (t : BitVec 3) (s : State) : Out :=
  s.need [.x a.toNat, .v d.toNat]
    (s.vres d t.toNat (List.replicate (laneN t.toNat) ((s.X a).toNat % 2 ^ laneW t.toNat)) 2).issued

def execVbcastLane (d a b : BitVec 5) (t : BitVec 3) (s : State) : Out :=
  s.need [.v a.toNat, .x b.toNat, .v d.toNat]
    (let n := laneN t.toNat
     let l := lanesOf (laneW t.toNat) (s.V a)
     (s.vres d t.toNat (List.replicate n (l[(s.X b).toNat % n]?.getD 0)) 2).issued)

def execVperm (d a b : BitVec 5) (t : BitVec 3) (s : State) : Out :=
  s.need [.v a.toNat, .v b.toNat, .v d.toNat]
    (let n := laneN t.toNat
     let l := lanesOf (laneW t.toNat) (s.V a)
     (s.vres d t.toNat ((lanesOf (laneW t.toNat) (s.V b)).map (fun i => l[i % n]?.getD 0)) 3).issued)

/-! ## Reductions (R273, Table 9-8) -/

/-- The active lanes with their numbers. -/
def active {α : Type} (q : Word) (l : List α) : List (Nat × α) :=
  (zipW (fun i x => (i, x)) (List.range l.length) l).filter (fun p => maskBit q p.1)

/-- A reduction result in an x register: an integer sign-extended, or FP32 bits. -/
def State.redOut (s : State) (d : BitVec 5) (w : Word) (fl ftz : Nat) : Out :=
  (s.result (.x d.toNat) (w.setWidth 512) 6 fl ftz).issued

/-- FP32 left fold in ascending lane order, rounded after each addition. -/
def foldF32 : List Val → Rnd → Rnd
  | [], r => r
  | x :: t, r =>
    let e := FP32.fin (Val.add 0 (FP32.decode r.code) x) 0
    foldF32 t { code := e.code, fl := r.fl ||| e.fl, ftz := r.ftz + e.ftz }

/-- The extreme of a list of values: `lt` tells max from min. -/
def extreme (mx : Bool) : List Val → Val
  | [] => .inf mx
  | [x] => x
  | x :: t => if mx then x.max2 (extreme mx t) else x.min2 (extreme mx t)

def extremeI (mx : Bool) (w : Nat) (l : List Int) : Int :=
  if mx then l.foldl max (-(2 ^ (w - 1) : Nat)) else l.foldl min ((2 ^ (w - 1) : Nat) - 1)

def execVredAdd (d a : BitVec 5) (q t : BitVec 3) (s : State) : Out :=
  s.need [.v a.toNat, .q q.toNat, .x d.toNat]
    (if laneFp t.toNat then
       match (active (s.Q q) (vlanes t.toNat (s.V a))).map (·.2) with
       | [] => s.redOut d 0 0 0
       | x :: r =>
         let z := foldF32 r (FP32.round x 0)
         s.redOut d (w64 z.code) z.fl z.ftz
     else s.redOut d (i64 (((active (s.Q q) (slanes t.toNat (s.V a))).map (·.2)).foldl (· + ·) 0)) 0 0)

/-- Maximum or minimum of the active lanes. -/
def redExtreme (mx : Bool) (d a : BitVec 5) (q t : BitVec 3) (s : State) : Out :=
  s.need [.v a.toNat, .q q.toNat, .x d.toNat]
    (if laneFp t.toNat then
       s.redOut d (w64 (FP32.round (extreme mx ((active (s.Q q) (vlanes t.toNat (s.V a))).map (·.2))) 0).code) 0 0
     else s.redOut d (i64 (extremeI mx (laneW t.toNat) ((active (s.Q q) (slanes t.toNat (s.V a))).map (·.2)))) 0 0)

def execVredMax (d a : BitVec 5) (q t : BitVec 3) (s : State) : Out := redExtreme true d a q t s
def execVredMin (d a : BitVec 5) (q t : BitVec 3) (s : State) : Out := redExtreme false d a q t s

/-- The same value, zeros told apart by sign. -/
def Val.same (a b : Val) : Bool :=
  (a.isNan && b.isNan) || (!a.isNan && !b.isNan && a.cmp b == .eq && (a.sign == b.sign))

/-- Index of the lowest-numbered active lane holding the maximum, or the lowest NaN. -/
def maxIndex (l : List (Nat × Val)) : Word :=
  match l.find? (fun p => p.2.isNan) with
  | some p => w64 p.1
  | none => match l.find? (fun p => p.2.same (extreme true (l.map (·.2)))) with
    | some p => w64 p.1
    | none => BitVec.allOnes 64

def execVredMaxi (d a : BitVec 5) (q t : BitVec 3) (s : State) : Out :=
  s.need [.v a.toNat, .q q.toNat, .x d.toNat]
    (s.redOut d (maxIndex (active (s.Q q) (vlanes t.toNat (s.V a)))) 0 0)

/-- Log 25: DEDUCED, unsafe. -/
def execVxtr (d a b : BitVec 5) (t : BitVec 3) (s : State) : Out :=
  s.need [.v a.toNat, .x b.toNat, .x d.toNat]
    (let i := (s.X b).toNat % laneN t.toNat
     let x := (lanesOf (laneW t.toNat) (s.V a))[i]?.getD 0
     s.redOut d (if laneFp t.toNat then w64 (FP32.round ((laneFmt t.toNat).decode x) 0).code
       else i64 (sx (laneW t.toNat) x)) 0 0)

def execVpopq (d : BitVec 5) (q t : BitVec 3) (s : State) : Out :=
  s.need [.q q.toNat, .x d.toNat] (s.redOut d (w64 (popcount (laneN t.toNat) (s.Q q).toNat)) 0 0)

/-! ## Compensated sums (R187, R274) -/

/-- One lane of a pair (s, c) after a step, with flags and flush count. -/
structure Pair where
  s : Nat
  c : Nat
  fl : Nat
  ftz : Nat
  deriving DecidableEq, Repr

/-- One step of R187. -/
def sumkAcc (x s c : Nat) : Pair :=
  let t := twoSum s x
  let r := FP32.fin (Val.add 0 (FP32.decode c) t.2.1) 0
  { s := t.1, c := r.code, fl := t.2.2.1 ||| r.fl, ftz := t.2.2.2 + r.ftz }

/-- Rescale: one rounding per product. -/
def sumkScale (x s c : Nat) : Pair :=
  let p := FP32.fin (Val.mul (FP32.decode s) (FP32.decode x)) 0
  let r := FP32.fin (Val.mul (FP32.decode c) (FP32.decode x)) 0
  { s := p.code, c := r.code, fl := p.fl ||| r.fl, ftz := p.ftz + r.ftz }

/-- Finish: s := round(s + c), c := +0. -/
def sumkFin (_x s c : Nat) : Pair :=
  let p := FP32.fin (Val.add 0 (FP32.decode s) (FP32.decode c)) 0
  { s := p.code, c := 0, fl := p.fl, ftz := p.ftz }

/-- Lane by lane on the active lanes of V(d), V(d + 1); others keep their bits. -/
def sumkLanes (f : Nat → Nat → Nat → Pair) (q : Word) (x s c : List Nat) : List Pair :=
  zipW (fun (i : Nat) (p : Nat × Nat × Nat) =>
    if maskBit q i then f p.1 p.2.1 p.2.2 else { s := p.2.1, c := p.2.2, fl := 0, ftz := 0 })
    (List.range s.length) (zipW (fun x y => (x, y)) x (zipW (fun x y => (x, y)) s c))

def State.sumkOut (s : State) (d : BitVec 5) (l : List Pair) (lat : Nat) : Out :=
  ((s.result (.v d.toNat) (pack 32 (l.map (·.s))) lat (l.foldl (fun z p => z ||| p.fl) 0)
      (l.foldl (fun z p => z + p.ftz) 0)).result (.v (d.toNat + 1)) (pack 32 (l.map (·.c))) lat).issued

def sumkForm (f : Nat → Nat → Nat → Pair) (d a : BitVec 5) (q : BitVec 3) (s : State) : Out :=
  s.need [.v a.toNat, .q q.toNat, .v d.toNat, .v (d.toNat + 1)]
    (s.sumkOut d (sumkLanes f (s.Q q) (lanesOf 32 (s.V a)) (lanesOf 32 (s.V d))
      (lanesOf 32 (s.bk.readV (d.toNat + 1)))) 8)

def execVsumkAcc (d a : BitVec 5) (q : BitVec 3) (s : State) : Out := sumkForm sumkAcc d a q s
def execVsumkScale (d a : BitVec 5) (q : BitVec 3) (s : State) : Out := sumkForm sumkScale d a q s
def execVsumkFin (d : BitVec 5) (q : BitVec 3) (s : State) : Out := sumkForm sumkFin d d q s

/-- The fold across lanes: S, C and whether a first lane was met. -/
def sumkFold : List (Nat × Nat) → Bool → Pair → Pair
  | [], _, p => p
  | (x, c) :: t, first, p =>
    let a := if first then { p with s := x } else sumkAcc x p.s p.c
    let r := FP32.fin (Val.add 0 (FP32.decode a.c) (FP32.decode c)) 0
    sumkFold t false { s := a.s, c := r.code, fl := p.fl ||| a.fl ||| r.fl,
                       ftz := (if first then p.ftz else p.ftz + a.ftz) + r.ftz }

def execVsumkFold (d : BitVec 5) (q : BitVec 3) (s : State) : Out :=
  s.need [.q q.toNat, .v d.toNat, .v (d.toNat + 1)]
    (s.onUnit unitFold 4 (fun s =>
      let l := (active (s.Q q) (zipW (fun x y => (x, y)) (lanesOf 32 (s.V d))
        (lanesOf 32 (s.bk.readV (d.toNat + 1))))).map (·.2)
      let p := sumkFold l true { s := 0, c := 0, fl := 0, ftz := 0 }
      let e := sumkFin 0 p.s p.c
      s.sumkOut d [{ s := e.s, c := 0, fl := p.fl ||| e.fl, ftz := p.ftz + e.ftz }] 20))

/-! ## VSCAN (R275) -/

/-- One combination of a scan. -/
def scanOp (t op : Nat) (r x : Val) : Val × Rnd :=
  let w := laneW t
  match op with
  | 0 =>
    if laneFp t then
      let z := (laneFmt t).fin (Val.add 0 r x) 0
      ((laneFmt t).decode z.code, z)
    else
      let v := sx w (um w ((roundInt (Val.add 0 r x).1 (-(2 ^ 40)) (2 ^ 40) 1).val))
      (.ofInt v, { code := um w v, fl := 0, ftz := 0 })
  | 1 => (r.max2 x, { code := 0, fl := 0, ftz := 0 })
  | _ => (r.min2 x, { code := 0, fl := 0, ftz := 0 })

/-- The code of a lane value. -/
def laneCode (t : Nat) (x : Val) : Nat :=
  if laneFp t then ((laneFmt t).round x 0).code
  else um (laneW t) (roundInt x (-(2 ^ 40)) (2 ^ 40) 1).val

/-- What a lane holds before any active lane: R273's value for none. -/
def scanIdent (t op : Nat) : Nat :=
  let w := laneW t
  match op with
  | 0 => 0
  | 1 => if laneFp t then ((laneFmt t).round (.inf true) 0).code else 2 ^ (w - 1)
  | _ => if laneFp t then ((laneFmt t).round (.inf false) 0).code else 2 ^ (w - 1) - 1

/-- The scan: lanes with their mask bits, the running value or none. -/
def scanGo (t op : Nat) : List (Bool × Val) → Option Val → List Rnd
  | [], _ => []
  | (m, x) :: r, have_ =>
    match m, have_ with
    | false, none => { code := scanIdent t op, fl := 0, ftz := 0 } :: scanGo t op r none
    | false, some v => { code := laneCode t v, fl := 0, ftz := 0 } :: scanGo t op r (some v)
    | true, none => { code := laneCode t x, fl := 0, ftz := 0 } :: scanGo t op r (some x)
    | true, some v =>
      let z := scanOp t op v x
      { code := laneCode t z.1, fl := z.2.fl, ftz := z.2.ftz } :: scanGo t op r (some z.1)

def execVscan (d a : BitVec 5) (q t : BitVec 3) (c : BitVec 1) (o : BitVec 2) (s : State) : Out :=
  s.need [.v a.toNat, .q q.toNat, .v d.toNat]
    (let l := vlanes t.toNat (s.V a)
     let m := (List.range l.length).map (maskBit (s.Q q))
     let carry := if c == 1#1 then (vlanes t.toNat (s.V d)).getLast? else none
     (s.vresF d t.toNat (scanGo t.toNat o.toNat (zipW (fun b x => (b, x)) m l) carry) 6).issued)

/-! ## VCVT (R276) -/

/-- The container bits of a destination code, and the conversion of one element. -/
def cvtBits (k : Nat) : Nat := if k = 17 then 16 else if k = 18 then 32 else winBits k

def cvtElem (k mode : Nat) (sat fp : Bool) (x : Val) : Rnd :=
  if cvtInt (BitVec.ofNat 5 k) then
    let lo := if k = 17 then -(2 ^ 15) else if k = 18 then -(2 ^ 31) else winLo k
    let hi := if k = 17 then 2 ^ 15 - 1 else if k = 18 then 2 ^ 31 - 1 else winHi k
    let r := roundInt x lo hi mode
    { code := um (cvtBits k) r.val, fl := if fp then r.fl else 0, ftz := 0 }
  else (winFmt k).cvt x mode sat

def execVcvt (d a k : BitVec 5) (t : BitVec 3) (sat : BitVec 1) (m : BitVec 3) (s : State) : Out :=
  s.need [.v a.toNat, .v d.toNat]
    (let cb := cvtBits k.toNat
     let n := min (laneN t.toNat) (512 / cb)
     let l := ((vlanes t.toNat (s.V a)).take n).map (cvtElem k.toNat m.toNat (sat == 1#1) (laneFp t.toNat))
     (s.result (.v d.toNat) (pack cb (l.map (·.code))) 4 (flagsOf l) (ftzOf l)).issued)

end Sys2Proof.Machine
end

