-- ==== Sys2Proof/Machine/Fabric.lean ====
section
/-!
DEFINITION. The mesh (R59 to R78): routes, injection, route filters, router stages, delivery, credit and opens, task
counters (R103 to R106) and boundary nodes (R157). Data and markers are messages in `flights`; credit, opens, requests,
notices and configuration travel in their own lists and are delivered by their own events.
-/
namespace Sys2Proof.Machine

/-! ## Geometry and paths (R17, R68) -/

/-- The place of a column along the rows of both dies, its row, and the column at a place. -/
def xOf (p : Nat) : Nat := 16 * (p / 128) + p % 16
def yOf (p : Nat) : Nat := p / 16 % 8
def atXY (x y : Nat) : Nat := 128 * (x / 16) + 16 * y + x % 16

/-- One hop of the default path: along the row first, then along the column. -/
def stepTo (p q : Nat) : Nat :=
  if xOf p < xOf q then atXY (xOf p + 1) (yOf p)
  else if xOf q < xOf p then atXY (xOf p - 1) (yOf p)
  else if yOf p < yOf q then atXY (xOf p) (yOf p + 1)
  else atXY (xOf p) (yOf p - 1)

/-- The routers after p on the default path to q. -/
def walkTo : Nat → Nat → Nat → List Nat
  | 0, _, _ => []
  | f + 1, p, q => if p = q then [] else stepTo p q :: walkTo f (stepTo p q) q

def legTo (p q : Nat) : List Hop := (walkTo 48 p q).map (fun c => { col := c, stage := false })

/-- Mark the last router of a path as one whose stage is entered. -/
def markLast : List Hop → List Hop
  | [] => []
  | [h] => [{ h with stage := true }]
  | h :: t => h :: markLast t

/-- The path from `src` through waypoints (router, stage entered there) to `dest`. -/
def mkPath (src : Nat) (ws : List (Nat × Bool)) (dest : Nat) : List Hop :=
  let r := ws.foldl (fun (a : List Hop × Nat) w =>
    let l := a.1 ++ legTo a.2 w.1
    (if w.2 then markLast l else l, w.1)) ([{ col := src, stage := false }], src)
  r.1 ++ legTo r.2 dest

/-! ## Stages and routes -/

def State.setStage (s : State) (k : Nat) (t : Stage) : State :=
  { s with stages := s.stages.map (fun x => if x.1 = k then (k, t) else x) }

/-- What feeds a channel or a stage: a column's output, or another stage; `key` names the route's consumer and channel. -/
inductive Feeder where
  | col (p key : Nat)
  | stage (k key : Nat)
  deriving DecidableEq, Repr

/-- The routes that enter stage k, by their producers; a multicast has one stream for each channel number (R72). -/
def State.feeds (s : State) (k : Nat) (ch : Option Nat) : List Feeder :=
  let mine (r : Route) : Bool := s.endsAt r == some k && ch.elim true (fun n => r.chan == n)
  ((s.routes.filter mine).map (fun r =>
    if r.cast then .stage (stageKey r.region r.src r.vc) (outKey r.dest r.chan) else .col r.src (outKey r.dest r.chan))) ++
  s.stages.flatMap (fun x => (x.2.outs.filter mine).map (fun r => .stage x.1 (outKey r.dest r.chan)))

/-- The streams that stage k takes in for the stream of an output key. -/
def State.inputsOf (s : State) (k key : Nat) : List Feeder :=
  s.feeds k ((s.stageAt k).bind (fun t => if t.kind = 3 then some (key % 128) else none))

/-- The members of a stage's group. -/
def State.stageMembers (s : State) (t : Stage) : List Nat := members (s.groupMap t.group)

/-- The feeder of channel `ch` of column `dest` in the graph of a tag. -/
def State.feeder (s : State) (tag dest ch : Nat) : Feeder :=
  match s.stages.find? (fun x => x.2.outs.any (fun r => r.dest == dest && r.chan == ch && s.ofTag tag r && (s.endsAt r).isNone)) with
  | some x => .stage x.1 (outKey dest ch)
  | none => match s.stages.find? (fun x => x.2.kind == 3 && (s.stageMembers x.2).contains dest &&
      s.routes.any (fun r => r.chan == ch && s.ofTag tag r && s.endsAt r == some x.1)) with
    | some x => .stage x.1 (outKey dest ch)
    | none => match s.routes.find? (fun r => r.dest == dest && r.chan == ch && s.ofTag tag r && (s.endsAt r).isNone) with
      | some r => .col r.src (outKey dest ch)
      | none => .col ((s.col dest).chan ch).producer (outKey dest ch)

/-- The least of the values a table holds for the keys. -/
def least (t : List (Nat × Nat)) (ks : List Nat) : Nat :=
  match ks with
  | [] => 0
  | k :: r => r.foldl (fun m x => min m (sget 0 t x)) (sget 0 t k)

/-- Credit for `n` slots reaches a feeder: a column's output, or through a stage the producers of its inputs. A reduction
mirrors it to each member (R71); a multicast passes on, for each channel number, what every member has returned (R72).
`tag` is the consumer's context: after a splice's switch a producer takes it for its earlier outputs. -/
def State.giveCredit (s : State) (tag : Nat) (f : Feeder) (n : Nat) : Nat → State
  | 0 => s
  | fuel + 1 =>
    match f with
    | .col p key => s.modCol p (fun c => if (c.outOf tag key).paced then c.gain tag key n else c)
    | .stage k key => match s.stageAt k with
      | none => s
      | some t =>
        if t.kind = 3 then
          let ms := (s.stageMembers t).map (fun m => outKey m (key % 128))
          let cr := sput 0 t.credits key (sget 0 t.credits key + n)
          let m := least cr ms
          let t := { t with credits := ms.foldl (fun l x => sput 0 l x (sget 0 l x - m)) cr }
          (s.inputsOf k key).foldl (fun s g => if m = 0 then s else s.giveCredit tag g m fuel) (s.setStage k t)
        else (s.inputsOf k key).foldl (fun s g => s.giveCredit tag g n fuel) s

/-- CREDIT_MESSAGE (R37): the n-th credit message arrives. -/
def evCreditMessage (n : Nat) (s : State) : Option State :=
  match s.credits[n]? with
  | none => none
  | some c =>
    let dest := c.key / 128
    let tag := (s.col (p8 dest)).ctx
    some ({ s with credits := dropAt s.credits n }.giveCredit tag (s.feeder tag dest (c.key % 128)) c.n (s.stages.length + 1))

def execCreditMessage (n : Nat) (s : State) : Out := event (evCreditMessage n) s

/-- A channel's open reaches a feeder (R66): slot count and initial credit. A stage with several destinations opens its
producers when every destination has opened, with the least of both counts; it waits at a producer that has not come to
the graph of its tag (R102, R430). (Log 78: DEDUCED, unsafe) -/
def State.giveOpen (s : State) (tag : Nat) (f : Feeder) (cap credit : Nat) : Nat → State
  | 0 => s
  | fuel + 1 =>
    match f with
    | .col p key =>
      if (s.col p).ctx = tag then
        s.modCol p (fun c =>
          let c := c.modOut key (fun o => { o with opened := true, cap := cap, credit := if o.paced then credit else 0 })
          c.settle tag key c.inj.length)
      else { s with opens := s.opens ++ [{ col := p, key := key, cap := cap, credit := credit, tag := tag, direct := true }] }
    | .stage k key => match s.stageAt k with
      | none => s
      | some t =>
        let up (s : State) (cap credit : Nat) : State :=
          (s.inputsOf k key).foldl (fun s g => s.giveOpen tag g cap credit fuel) s
        if t.kind = 3 ∨ t.kind = 4 then
          let ks := if t.kind = 3 then (s.stageMembers t).map (fun m => outKey m (key % 128))
            else t.outs.map (fun r => outKey r.dest r.chan)
          let op := sput 0 t.opened key cap
          let cr := sput 0 t.credits key credit
          if ks.all (fun x => sget 0 op x != 0) then
            let m := least cr ks
            up (s.setStage k { t with opened := op, credits := ks.foldl (fun l x => sput 0 l x (sget 0 l x - m)) cr })
              (least op ks) m
          else s.setStage k { t with opened := op, credits := cr }
        else up s cap credit

/-- CHANNEL_OPEN: the n-th open arrives. -/
def evChannelOpen (n : Nat) (s : State) : Option State :=
  match s.opens[n]? with
  | none => none
  | some o =>
    if o.direct = true ∧ (s.col o.col).ctx ≠ o.tag then none
    else
      let f : Feeder := if o.direct then .col o.col o.key else s.feeder o.tag (o.key / 128) (o.key % 128)
      some ({ s with opens := dropAt s.opens n }.giveOpen o.tag f o.cap o.credit (s.stages.length + 1))

def execChannelOpen (n : Nat) (s : State) : Out := event (evChannelOpen n) s

/-! ## Route filters (R77, R78) -/

/-- Little-endian bytes of a number, and the number of a payload. -/
def Msg.payload (m : Msg) : Nat := leNat m.pay

/-- Conversion: the bytes behind the elements are open, and a message longer than 8 units shows the low 3 bits of its
LEN. (Log 132: DESIGN CHOICE, unsafe) -/
def Filter.convert (f : Filter) (m : Msg) (from_ : Nat) : Msg :=
  if f.conv then
    let xs := unpack (winBits f.sfmt) f.e m.payload
    let ys := xs.map (fun b => (cvtElem f.dfmt f.mode f.sat (!winInt f.sfmt) (winVal f.sfmt b)).code)
    let used := ceilDiv (f.e * winBits f.dfmt) 8
    { m with len := f.outLen m.len,
             pay := leBytes used (packNat (winBits f.dfmt) ys) ++ freeBytes from_ (payBytes (f.outLen m.len) - used) }
  else m

/-- Transpose each 8 × 8 block of elements of 8 × 2^TW bits. -/
def Filter.transpose (f : Filter) (m : Msg) : Msg :=
  if f.trans then
    let w := 8 * 2 ^ f.tw
    let xs := unpack w f.e m.payload
    let ys := (List.range f.e).map (fun i => xs.getD (i / 64 * 64 + i % 8 * 8 + i / 8 % 8) 0)
    { m with pay := leBytes m.pay.length (m.payload / 2 ^ (w * f.e) * 2 ^ (w * f.e) + packNat w ys) }
  else m

/-- A message as its route's filter leaves it; a mismatch forwards it untransformed with FERR and cause 0x285. Zero removal
is undone at ejection, so the message is as it was. Markers have no elements and pass as they are. (Log 131: DESIGN
CHOICE, unsafe) -/
def State.filterMsg (s : State) (p : Nat) (r : Route) (m : Msg) : Msg × State :=
  match r.filter with
  | none => (m, s)
  | some f =>
    if m.kind ≠ 0 then (m, s)
    else if f.unfit m.len m.pay.length then
      let m := { m with ferr := true }
      (m, s.reportOnly 0x285 p m.header)
    else (f.transpose (f.convert m s.nextFree), { s with nextFree := s.nextFree + payBytes (f.outLen m.len) })

/-! ## Router buffers (R67) -/

/-- The router a message stands at. -/
def Flight.at_ (f : Flight) : Nat := (f.path.head?.map (·.col)).getD f.msg.dest
def Flight.units (f : Flight) : Nat := f.msg.units

/-- The input buffer of a router: 4 units for one virtual channel of one link; a longer train streams through an empty
one. A stage has such a buffer for what it emits, entered from 256 + its router. (Log 80: DEDUCED, unsafe; 147: DESIGN
CHOICE, unsafe) -/
def State.bufferRoom (s : State) (from_ at_ vc units : Nat) : Bool :=
  let used := (s.flights.filter (fun g => g.vc == vc && g.at_ == at_ && g.from_ == from_)).foldl
    (fun n g => n + g.units) 0
  decide (used + units ≤ 4) || decide (used = 0)

/-! ## Injection (R41, R42, R154) -/

/-- The remote stores of column p among the requests numbered below `before`, with a home inside the scope instance, have
been acknowledged or refused (R154). -/
def State.storesDone (s : State) (p scope before : Nat) : Bool :=
  !s.reqs.any (fun r => decide (r.col = p) && decide (r.id < before) && match r.op with
    | .store ws => ws.any (fun w => inScope p scope s.capacity w.loc)
    | _ => false)

/-- A message leaves the injection queue of column p. -/
def State.injectMsg (s : State) (p : Nat) (m : Msg) (scope : Nat) : Option State :=
  match s.routeTo m.ctx p m.dest m.chan with
  | none => none
  | some r =>
    if (s.col p).outOf m.ctx (outKey m.dest m.chan) |>.opened then
      if s.storesDone p scope s.nextId && s.bufferRoom p p r.vc m.units then
        let x := s.filterMsg p r m
        let f : Flight := { msg := x.1, vc := r.vc, done := 0, rt := r, from_ := p, path := r.path, probe := 0,
                            origins := [(p, s.nextId)], since := none }
        some ({ x.2 with flights := x.2.flights ++ [f] }.modCol p (fun c => { c with inj := c.inj.tail }))
      else none
    else none

/-- MESSAGE_INJECTION: the entry at the head of column p's injection queue goes: a message into the mesh, one request of a
remote store (a release store after the column's earlier ones are acknowledged), a wavefront. -/
def evMessageInjection (p : Nat) (s : State) : Option State :=
  match (s.col p).inj with
  | [] => none
  | .msg m sc :: _ => s.injectMsg p m sc
  | .marker m sc paid :: _ => if paid then s.injectMsg p m sc else none
  | .wave m :: t =>
    let w : Wave := { col := m.dest, src := p, chan := m.chan, ctx := m.ctx, seq := m.seq }
    some ({ s with wavefronts := s.wavefronts ++ [w] }.modCol p (fun c => { c with inj := t }))
  | .store lines tepc tmsg rel ctx id :: t =>
    match lines with
    | [] => some (s.modCol p (fun c => { c with inj := t }))
    | l :: ls =>
      if rel.isSome && !s.storesDone p 4 s.nextId then none
      else
        let r : MemReq := { id := s.nextId, col := p, band := 0, rseq := (s.col p).rseq, tmsg := tmsg, tepc := tepc, aw := false,
                            va := l.1, op := .store l.2, dst := none, st := .sent, got := [], due := 0, when := 0, ctx := ctx }
        let old := if s.fresWait.contains id then s.fresWait ++ [s.nextId] else s.fresWait
        some ({ s with reqs := s.reqs ++ [r], nextId := s.nextId + 1, fresWait := old }.modCol p (fun c =>
          { c with rseq := (c.rseq + 1) % 2 ^ 16, inj := if ls.isEmpty then t else .store ls tepc tmsg rel ctx id :: t }))

def execMessageInjection (c : Nat) (s : State) : Out := event (evMessageInjection c) s

/-! ## Routers (R61, R65, R67) -/

/-- The message stands at its destination's ejection port. -/
def Flight.ejecting (f : Flight) : Bool :=
  match f.path with
  | [h] => !h.stage
  | _ => false

/-- An earlier message of the same route stands in the same input buffer; between routes there is no order (R68,
R160). (Log 80: DEDUCED, unsafe) -/
def State.behind (s : State) (n : Nat) (f : Flight) : Bool :=
  (s.flights.take n).any (fun g => g.vc == f.vc && g.at_ == f.at_ && g.from_ == f.from_ && g.rt == f.rt)

/-- Another virtual channel's message waits for the same link and has the turn. (Log 80: DEDUCED, unsafe) -/
def State.linkBusy (s : State) (n at_ nx vc : Nat) : Bool :=
  sget 0 s.linkRot (256 * at_ + nx) == vc + 1 &&
  (List.range s.flights.length).any (fun i => match s.flights[i]? with
    | none => false
    | some g => i != n && g.vc != vc && g.at_ == at_ && !s.behind i g && match g.path with
      | h :: k :: _ => !h.stage && k.col == nx && s.bufferRoom at_ nx g.vc g.units
      | _ => false)

/-- Replace flight n by others, which come behind every message already there. -/
def State.moveFlight (s : State) (n : Nat) (fs : List Flight) : State := { s with flights := dropAt s.flights n ++ fs }

/-- The stage in slot k of column `col` emits a new stream on route r: SEQ from the stage's counter, SRC the stage's column
(R59, R60), and the route's filter (R77). A steer counts as such a stage. (Log 130: DEDUCED, unsafe) -/
def State.emit (s : State) (k col : Nat) (t : Stage) (f : Flight) (r : Route) : Flight × State :=
  let s := s.setStage k { t with seq := (t.seq + 1) % 2 ^ 16 }
  let x := s.filterMsg col r { f.msg with dest := r.dest, chan := r.chan, seq := t.seq, src := col }
  ({ f with msg := x.1, rt := r, from_ := 256 + col, path := r.path, probe := 0 }, x.2)

/-- What a stage emits enters the stage's buffer when there is room; the stage holds its inputs until then (R65). (Log
147: DESIGN CHOICE, unsafe) -/
def State.entered (x : Flight × State) : Option State :=
  if x.2.bufferRoom x.1.from_ x.1.at_ x.1.vc x.1.units then some { x.2 with flights := x.2.flights ++ [x.1] } else none

/-- The stage emits flight n on route r. -/
def State.emitOn (s : State) (n k : Nat) (t : Stage) (f : Flight) (r : Route) : Option State :=
  State.entered ({ s with flights := dropAt s.flights n }.emit k f.at_ t f r)

/-- `n` payload bytes at `o` as a number; open where the payload ends before them. (Log 134: DESIGN CHOICE, safe) -/
def State.payAt (s : State) (m : Msg) (o n : Nat) : Nat × State :=
  if o + n ≤ m.pay.length then (m.payNat o n, s)
  else (leNat (freeBytes s.nextFree n), { s with nextFree := s.nextFree + n })

/-- The predicate of R76 on the value of its lane. -/
def Stage.holds (t : Stage) (v : Nat) : Bool :=
  if t.ctype = 2 then
    let a := FP32.decode v
    let b := FP32.decode t.const
    match t.cmp with
    | 0 => !a.isNan && !b.isNan && a.cmp b == .eq
    | 1 => a.isNan || b.isNan || a.cmp b != .eq
    | 2 => !a.isNan && !b.isNan && a.cmp b == .lt
    | _ => !a.isNan && !b.isNan && a.cmp b != .lt
  else
    let x : Int := if t.ctype = 0 then sx 32 v else v
    let y : Int := if t.ctype = 0 then sx 32 t.const else t.const
    match t.cmp with
    | 0 => x == y
    | 1 => x != y
    | 2 => decide (x < y)
    | _ => decide (y ≤ x)

/-- The same message with its stage passed. (Log 85: DEDUCED, unsafe) -/
def Flight.passed (f : Flight) : Flight :=
  { f with path := match f.path with
      | h :: t => { h with stage := false } :: t
      | [] => [] }

/-- The route on which the multicast of slot k emits the copy of channel `ch` for a member. -/
def State.castRoute (s : State) (k ch m : Nat) : Option Route :=
  s.routes.find? (fun r => r.cast && stageKey r.region r.src r.vc == k && decide (r.dest = m) && decide (r.chan = ch))

/-- A copy of a multicast for a member: on along the entering route to that route's own consumer, else by the route that
leaves this router for the member and its filter, else by the default path. (Log 78: DEDUCED, unsafe) -/
def State.copyTo (s : State) (k : Nat) (f : Flight) (m : Nat) : Flight × State :=
  let g := { f with msg := { f.msg with dest := m }, from_ := 256 + f.at_, done := 0 }
  if m = f.rt.dest then ({ g with path := f.passed.path }, s)
  else match s.castRoute k f.msg.chan m with
    | some r =>
      let x := s.filterMsg f.at_ r g.msg
      ({ g with msg := x.1, rt := r, path := r.path, probe := 0 }, x.2)
    | none => ({ g with path := mkPath f.at_ [] m }, s)

/-- The next copy of flight n, which stands at a multicast: in ascending member order, one at a time; the message goes with the
last one. -/
def State.copyOut (s : State) (n k : Nat) (f : Flight) (ms : List Nat) : Option State :=
  match ms[f.done]? with
  | none => none
  | some m =>
    let left := if f.done + 1 < ms.length then setAt s.flights n { f with done := f.done + 1 } else dropAt s.flights n
    State.entered ({ s with flights := left }.copyTo k f m)

/-- A steer's exit: a message that leaves by a route other than the loop-back ends an entry of the paired carry (R75). -/
def State.leaveLoop (s : State) (k : Nat) (r : Route) : State :=
  { s with stages := s.stages.map (fun x =>
      if x.2.kind = 6 ∧ x.2.pair = k ∧ x.2.loop ≠ some r then (x.1, { x.2 with inflight := x.2.inflight - 1 }) else x) }

/-- A message enters the stage of the router it stands at. A reduction holds up to 16 units of each member, as many as a channel
has slots. (Log 130: DEDUCED, unsafe; 147: DESIGN CHOICE, unsafe) -/
def State.enterStage (s : State) (n : Nat) (f : Flight) (k : Nat) (t : Stage) : Option State :=
  let col := f.at_
  match t.kind with
  | 0 => some { s with flights := setAt s.flights n f.passed }
  | 7 =>
    let v := s.payAt f.msg t.off 4
    if t.holds v.1 then some { v.2 with flights := setAt s.flights n f.passed }
    else some { v.2 with flights := dropAt s.flights n }
  | 3 => s.copyOut n k f (s.stageMembers t)
  | 4 =>
    let v := s.payAt f.msg t.off 1
    match t.outs[min (v.1 % 4) (t.outs.length - 1)]? with
    | none => none
    | some r => (v.2.emitOn n k t f r).map (fun s => s.leaveLoop k r)
  | 5 =>
    if (s.flights.take n).any (fun g => g.at_ == col && g.vc == f.vc && (g.path.head?.elim false (·.stage))) then none
    else match t.outs with
      | [] => none
      | r :: _ => s.emitOn n k t f r
  | 6 =>
    if some f.rt = t.loop then
      match t.outs with
      | [] => none
      | r :: _ => s.emitOn n k t f r
    else none
  | _ =>
    let mine := (t.waiting.filter (fun w => w.1 == f.msg.src)).foldl (fun n w => n + w.2.units) 0
    if t.stopped ∨ 16 < mine + f.units then none
    else some ({ s with flights := dropAt s.flights n }.setStage k { t with waiting := t.waiting ++ [(f.msg.src, f)] })

/-- ROUTER_FORWARD: the n-th message is forwarded by the router it stands at, held by a boundary node, entered into a stage,
or discarded for a reserved kind. -/
def evRouterForward (n : Nat) (s : State) : Option State :=
  match s.flights[n]? with
  | none => none
  | some f =>
    let here := f.at_
    if s.behind n f then none
    else if 11 ≤ f.msg.kind then
      some ({ s with flights := dropAt s.flights n }.reportOnly 0x286 here f.msg.header)
    else
      let held := match f.rt.bnd with
        | some (c, _) => decide (c = here) && decide (f.probe ≠ 2)
        | none => false
      if held then
        if f.probe = 0 then some { s with flights := setAt s.flights n { f with probe := 1 } } else none
      else match f.path with
        | h :: t =>
          if h.stage then
            match s.stageAt (stageKey f.rt.region h.col f.vc) with
            | some st => s.enterStage n f (stageKey f.rt.region h.col f.vc) st
            | none => some { s with flights := setAt s.flights n f.passed }
          else match t with
            | [] => none
            | nx :: _ =>
              if !s.bufferRoom h.col nx.col f.vc f.units || s.linkBusy n h.col nx.col f.vc then none
              else some ({ s with linkRot := sput 0 s.linkRot (256 * h.col + nx.col) (f.vc + 1) }.moveFlight n
                [{ f with path := t, from_ := h.col }])
        | [] => none

def execRouterForward (n : Nat) (s : State) : Out := event (evRouterForward n) s

/-- BOUNDARY_PROBE_ANSWER (R157): every origin of the n-th message answers that R154 holds at the widened scope. -/
def evBoundaryProbe (n : Nat) (s : State) : Option State :=
  match s.flights[n]? with
  | none => none
  | some f => match f.rt.bnd with
    | none => none
    | some (_, sc) =>
      if f.probe = 1 ∧ f.origins.all (fun o => s.storesDone o.1 sc o.2) = true then
        some { s with flights := setAt s.flights n { f with probe := 2 } }
      else none

def execBoundaryProbeAnswer (n : Nat) (s : State) : Out := event (evBoundaryProbe n) s

/-! ## Reductions and carries (R71, R75) -/

/-- One element of a reduction over the members' values in ascending member order. -/
def reduceElem (kind efmt : Nat) (l : List Nat) : Nat :=
  match efmt with
  | 0 =>
    let xs := l.map (sx 32)
    um 32 (if kind = 1 then satS 32 (xs.foldl (· + ·) 0) else xs.foldl max (xs.headD 0))
  | _ =>
    let f := if efmt = 1 then FP32 else BF16
    let xs := l.map f.decode
    if kind = 1 then
      let r := match l with
        | [] => 0
        | a :: t => t.foldl (fun acc b => (FP32.round (Val.add 0 (FP32.decode acc) (f.decode b)).1 0).code)
            (if efmt = 1 then a else (FP32.round (f.decode a) 0).code)
      if efmt = 1 then r else (BF16.round (FP32.decode r) 0).code
    else if xs.any Val.isNan then (f.round .nan 0).code
    else match xs with
      | [] => 0
      | a :: t => (f.round (t.foldl Val.max2 a) 0).code

/-- The first waiting message of a member, and the list without it. (Log 79: DEDUCED, unsafe) -/
def takeFirst (m : Nat) : List (Nat × Flight) → Option (Flight × List (Nat × Flight))
  | [] => none
  | (k, f) :: t => if k = m then some (f, t) else (takeFirst m t).map (fun r => (r.1, (k, f) :: r.2))

/-- The n-th message of every member, or none while one is missing. -/
def takeAll : List Nat → List (Nat × Flight) → Option (List Flight × List (Nat × Flight))
  | [], l => some ([], l)
  | m :: t, l => match takeFirst m l with
    | none => none
    | some (f, l) => (takeAll t l).map (fun r => (f :: r.1, r.2))

/-- REDUCTION_STAGE: stage k combines one message of each member of its group; elements past a payload are open. (Log
79: DEDUCED, unsafe; 133: DESIGN CHOICE, safe) -/
def evReduction (k : Nat) (s : State) : Option State :=
  match s.stageAt k with
  | none => none
  | some t =>
    if t.stopped ∨ (t.kind ≠ 1 ∧ t.kind ≠ 2) then none
    else match takeAll (s.stageMembers t) t.waiting, t.outs with
      | some (f :: fs, rest), r :: _ =>
        if fs.any (fun g => g.msg.len != f.msg.len) then
          some ((s.setStage k { t with stopped := true }).reportOnly 0x283 (stageCol k) (w64 t.group))
        else
          let w := if t.efmt = 2 then 16 else 32
          let used := t.e * w / 8
          let n := (f :: fs).length
          let vals := zipW (fun i (g : Flight) => unpack w t.e (leNat (g.msg.pay ++
            freeBytes (s.nextFree + i * used) (used - g.msg.pay.length)))) (List.range n) (f :: fs)
          let out := packNat w ((List.range t.e).map (fun i => reduceElem t.kind t.efmt (vals.map (fun v => v.getD i 0))))
          let data := (leBytes used out ++ freeBytes (s.nextFree + n * used) (f.msg.pay.length - used)).take f.msg.pay.length
          let m := { f.msg with pay := if f.msg.isMarker then f.msg.pay else data, ferr := (f :: fs).any (fun (g : Flight) => g.msg.ferr) }
          State.entered ({ s with nextFree := s.nextFree + n * used + f.msg.pay.length }.emit k (stageCol k) { t with waiting := rest }
            { f with msg := m, origins := (f :: fs).flatMap (fun (g : Flight) => g.origins) } r)
      | _, _ => none

def execReductionStage (n : Nat) (s : State) : Out := event (evReduction n) s

/-- CARRY_ADMIT: the n-th message, an entry at a carry, is admitted while fewer than k entries are in flight and no
loop-back message waits there. -/
def evCarryAdmit (n : Nat) (s : State) : Option State :=
  match s.flights[n]? with
  | none => none
  | some f =>
    let k := stageKey f.rt.region f.at_ f.vc
    match s.stageAt k with
    | none => none
    | some t =>
      let here := fun (g : Flight) => g.at_ == f.at_ && g.vc == f.vc && (g.path.head?.elim false (·.stage))
      if t.kind ≠ 6 ∨ here f = false ∨ some f.rt = t.loop ∨ s.behind n f = true ∨ t.lim < t.inflight ∨
          s.flights.any (fun g => here g && some g.rt == t.loop) = true then none
      else match t.outs with
        | [] => none
        | r :: _ => s.emitOn n k { t with inflight := t.inflight + 1 } f r

def execCarryAdmit (n : Nat) (s : State) : Out := event (evCarryAdmit n) s

/-! ## Delivery (R64, R87, R93, R424) -/

/-- The key under which the dispatcher remembers that a column has left a tag. -/
def tagKey (tag col : Nat) : Nat := 256 * tag + col

/-- Units of a message delivered on an input whose marker has not come are copied into the snapshot area (R87, R89).
(Log 83: DEDUCED, unsafe) -/
def State.captureMsg (s : State) (p ch : Nat) (m : Msg) : State :=
  let c := s.col p
  match c.joinOf ch with
  | none => s
  | some j => match j.cap with
    | none => s
    | some k =>
      if !k.fired || !k.unal || !k.awaited.contains ch then s
      else if m.kind = 2 ∧ m.snapId = k.snapId then
        let k := { k with awaited := k.awaited.filter (fun x => x != ch) }
        (s.setCol p (c.setJoin { j with cap := some k })).writeRecord p j k
      else if k.ovf then s
      else if j.units - 1 < k.units + m.units then
        let k := { k with ovf := true }
        ((s.setCol p (c.setJoin { j with cap := some k })).writeRecord p j k).reportOnly 0x282 p (w64 k.snapId)
      else
        let at_ := j.area + 64 * (1 + k.units)
        let k := { k with units := k.units + m.units }
        ((s.setCol p (c.setJoin { j with cap := some k })).wrBytes (.ls p at_) m.bytes).writeRecord p j k

/-- A message enters a channel's slots. -/
def State.place (s : State) (p : Nat) (m : Msg) (ord : Nat) : State :=
  s.modCol p (fun c => c.modChan m.chan (fun k =>
    { k with items := k.items ++ [{ msg := m, taken := none, tick := s.pktCycle, ord := ord }] }))

/-- The n-th message stands first at its ejection port, and no boundary node holds it. -/
def State.atPort (s : State) (n : Nat) (f : Flight) : Bool :=
  let held := match f.rt.bnd with
    | some (b, _) => decide (b = f.at_) && decide (f.probe ≠ 2)
    | none => false
  f.ejecting && !held && !s.behind n f && !(s.flights.take n).any (fun g => g.ejecting && g.at_ == f.at_ && g.vc == f.vc)

/-- The packet that a queue has read claims a held message: a launch dispatched at most 6,400 cycles after its arrival, with its
tag. One whose completion queue is at its limit is not dispatched (R424, R427). -/
def State.claims (s : State) (k : LQueue) (f : Flight) : Bool :=
  match f.since, k.pkt with
  | some t, some b =>
    let v := leNat b
    bitN v 10 && (fieldN v 7 0 == 1 || fieldN v 7 0 == 2) && fieldN v 215 208 == f.msg.ctx && decide (k.readAt ≤ t + 6400) &&
      decide ((sget RQueue.reset s.rq (fieldN v 14 12)).waiting.length < 256)
  | _, _ => false

/-- A held message whose launch is under way: its packet waits, or its region has loaded and was read within 6,400 cycles of the
message's arrival. -/
def State.claimed (s : State) (f : Flight) : Bool :=
  s.lq.any (fun q => s.claims q.2 f) ||
  f.since.elim false (fun t =>
    s.regions.any (fun r => r.ctx == f.msg.ctx && decide (r.readAt ≤ t + 6400) && decide (t ≤ r.readAt + 6400)))

/-- MESSAGE_DELIVERY: the n-th message, first at its ejection port, is delivered, discarded as stale or overlong, or begins to
be held for its tag. -/
def evMessageDelivery (n : Nat) (s : State) : Option State :=
  match s.flights[n]? with
  | none => none
  | some f =>
    let p := f.msg.dest % 256
    let c := s.col p
    let gone := { s with flights := dropAt s.flights n }
    let stale (f : Flight) : Bool := f.since.elim false (fun t => decide (t + 6400 ≤ s.pktCycle) && !s.claimed f)
    if !s.atPort n f then none
    else if stale f then some (gone.reportOnly 0x280 p f.msg.header)
    else if f.msg.ctx ≠ c.ctx then
      if s.retired.contains (tagKey f.msg.ctx p) then some (gone.reportOnly 0x280 p f.msg.header)
      else if f.since.isNone then some { s with flights := setAt s.flights n { f with since := some s.pktCycle } }
      else none
    else if f.msg.kind = 3 then none
    else
      let k := c.chan f.msg.chan
      if k.slots < f.msg.units then some (gone.reportOnly 0x28B p f.msg.header)
      else if k.slots < k.used + f.msg.units then none
      else
        let s := { gone with nextId := gone.nextId + 1 }
        some (((((s.place p f.msg s.nextId).captureMsg p f.msg.chan f.msg).shortPass p f.msg.chan)).openCaptures p)

def execMessageDelivery (n : Nat) (s : State) : Out := event (evMessageDelivery n) s

/-- Messages are discarded as stale, each with its report. -/
def State.discardStale (s : State) (bad : Flight → Bool) : State :=
  (s.flights.filter bad).foldl (fun s f => s.reportOnly 0x280 (p8 f.msg.dest) f.msg.header)
    { s with flights := s.flights.filter (fun f => !bad f) }

/-- HELD_MESSAGE_TIMEOUT: 6,400 cycles after its arrival no launch with its tag has been dispatched; the message is stale. -/
def evHeldTimeout (n : Nat) (s : State) : Option State :=
  match s.flights[n]? with
  | none => none
  | some f => match f.since with
    | none => none
    | some t =>
      if t + 6400 ≤ s.pktCycle ∧ s.claimed f = false then
        some ({ s with flights := dropAt s.flights n }.reportOnly 0x280 (f.msg.dest % 256) f.msg.header)
      else none

def execHeldMessageTimeout (n : Nat) (s : State) : Out := event (evHeldTimeout n) s

/-! ## Task counters (R103 to R106) -/

/-- The subgraph of a column: scope, columns. -/
def State.subOf (s : State) (p : Nat) : Option (Nat × Nat) :=
  (s.regions.find? (fun r => r.id == (s.col p).region)).bind (fun r => r.subs.find? (fun x => bitN x.2 p))

/-- The route of a task decrement from column `src` to `dest`: that of an unpaced output without a stage or filter, with its
boundary node, else the default path. Between subgraphs it needs the boundary node (R157). (Log 136: DESIGN CHOICE,
unsafe) -/
def State.decrementRoute (s : State) (src dest : Nat) : Option Route :=
  let plain : Route := { region := (s.col src).region, cast := false, dest := dest, chan := 0, src := src, unp := true,
                         filter := none, bnd := none, path := mkPath src [] dest }
  let r := (s.routes.find? (fun r => !r.cast && r.src == src && r.dest == dest && r.unp && s.ofTag (s.col src).ctx r &&
    r.filter.isNone && !r.path.any (·.stage))).getD plain
  if s.subOf src == s.subOf (p8 dest) || r.bnd.isSome then some r else none

/-- A task decrement enters the network at column `src` on VC1 through its injection queue's buffer; no rule says what sends
one. It is a release at its route's scope (R153, R156). (Log 136: DESIGN CHOICE, unsafe) -/
def State.sendDecrement (s : State) (src dest off amt : Nat) : Option State :=
  match s.subOf src, s.decrementRoute src dest with
  | some (scope, _), some r =>
    if s.storesDone src scope s.nextId && s.bufferRoom src src 1 1 then
      let m : Msg := { dest := dest, chan := 0, kind := 3, len := 0, seq := 0, ctx := (s.col src).ctx, src := src, ferr := false,
                       pay := leBytes 4 (off % 2 ^ 24) ++ leBytes 52 (amt % 2 ^ 16) }
      some { s with flights := s.flights ++ [{ msg := m, vc := 1, done := 0, rt := r, from_ := src, path := r.path, probe := 0,
                                               origins := [(src, s.nextId)], since := none }] }
    else none
  | _, _ => none

/-- A decrement of `amt` for the counter word at `off` of column p (R104, R106). -/
def State.decrement (s : State) (p off amt : Nat) : State :=
  let w := s.rdNat (.ls p off) 8
  let ok := decide (amt ≠ 0) && off % 8 == 0 && decide (off ≤ 0xFFFF8) && match (s.col p).entry (fieldN w 61 56) with
    | some e => e.task && e.counter == off
    | none => false
  if ok then s.wrNat (.ls p off) 8 (w / 2 ^ 32 * 2 ^ 32 + um 32 (satS 32 (sx 32 w - amt)))
  else s.reportOnly 0x284 p (w64 off)

/-- The message is a task decrement of `amt` for offset `off` of column p: payload bytes 2 to 0 hold the offset, bytes 5 and 4
the amount (R104). -/
def Msg.isDecrement (m : Msg) (p off amt : Nat) : Bool :=
  m.kind == 3 && m.dest % 256 == p && m.payNat 0 3 == off && m.payNat 4 2 == amt

/-- TASK_DECREMENT: a task decrement that stands first at the ejection port of column p, under the column's tag, is taken by the
column's task logic. (Log 136: DESIGN CHOICE, unsafe) -/
def evTaskDecrement (p off amt : Nat) (s : State) : Option State :=
  let here (n : Nat) : Bool := match s.flights[n]? with
    | some f => f.msg.isDecrement p off amt && s.atPort n f && decide (f.msg.ctx = (s.col p).ctx)
    | none => false
  ((List.range s.flights.length).find? here).map (fun n => { s with flights := dropAt s.flights n }.decrement p off amt)

def execTaskDecrement (c off amt : Nat) (s : State) : Out := event (evTaskDecrement c off amt) s

end Sys2Proof.Machine
end

