-- ==== Sys2Proof/Machine/Image.lean ====
section
/-!
DEFINITION. The configuration image (R373 to R379) and the loader's checks that depend only on the image (R381, R383).
An item is the little-endian number of its bytes; sections of fixed item size are lists of such numbers.
-/
namespace Sys2Proof.Machine

/-- `n` bytes of an image from byte `o` on, as a number. -/
def imgNat (b : List Byte) (o n : Nat) : Nat := leNat ((b.drop o).take n)

/-! ## Header and sections (Tables 15-1, 15-2) -/

structure Sect where
  kind : Nat
  off : Nat
  count : Nat
  rz : Bool
  deriving DecidableEq, Repr

def imgLen (b : List Byte) : Nat := fieldN (imgNat b 0 64) 95 64
def imgNsec (b : List Byte) : Nat := fieldN (imgNat b 0 64) 111 96
def imgCols (b : List Byte) : Nat := fieldN (imgNat b 0 64) 383 128
def imgUrgent (b : List Byte) : Bool := bitN (imgNat b 0 64) 48
def imgSplice (b : List Byte) : Bool := bitN (imgNat b 0 64) 49

def sectOf (v : Nat) : Sect :=
  { kind := fieldN v 7 0, off := fieldN v 63 32, count := fieldN v 95 64, rz := fieldN v 31 8 != 0 || fieldN v 127 96 != 0 }

def imgSects (b : List Byte) : List Sect := (List.range (imgNsec b)).map (fun i => sectOf (imgNat b (64 + 16 * i) 16))

/-- Item bytes of the kinds whose items have one size. -/
def itemSize (k : Nat) : Nat :=
  match k with
  | 1 => 152
  | 3 | 4 => 32
  | 5 | 9 | 10 => 16
  | 6 | 8 | 11 => 48
  | _ => 8

/-- The bytes of one item of a section, at byte `o`. -/
def itemBytes (b : List Byte) (k o : Nat) : Nat :=
  match k with
  | 12 => 16 + 16 * ceilDiv (fieldN (imgNat b o 16) 127 96) 16
  | 13 => 16 + 64 * (fieldN (imgNat b o 16) 19 17 + 1)
  | _ => itemSize k

/-- The offsets of a section's items, and the end of the last. -/
def itemOffs (b : List Byte) (k : Nat) : Nat → Nat → List Nat
  | 0, _ => []
  | n + 1, o => o :: itemOffs b k n (o + itemBytes b k o)

def sectEnd (b : List Byte) (k : Nat) : Nat → Nat → Nat
  | 0, o => o
  | n + 1, o => if b.length < o then o else sectEnd b k n (o + itemBytes b k o)

/-- The items of kind k as numbers. -/
def imgItems (b : List Byte) (k : Nat) : List Nat :=
  match (imgSects b).find? (fun s => s.kind == k) with
  | none => []
  | some s => (itemOffs b k s.count s.off).map (fun o => imgNat b o (itemBytes b k o))

/-! ## Fields of items (Tables 15-3 to 15-6, Table 11-4) -/

def colOf (v : Nat) : Nat := fieldN v 9 0
def chanOf (v : Nat) : Nat := fieldN v 16 10

def hIx (v : Nat) : Nat := fieldN v 15 10
def hTask (v : Nat) : Bool := bitN v 16
def hLevel (v : Nat) : Nat := fieldN v 22 17
def hAcc (v : Nat) : Nat := fieldN v 47 40
def hIn (v i : Nat) : Nat := fieldN v (128 + 32 * i + 31) (128 + 32 * i)
def hOut (v i : Nat) : Nat := fieldN v (384 + 32 * i + 31) (384 + 32 * i)
def hCounter (v : Nat) : Nat := fieldN v 659 640
def hSaga (v n : Nat) : Nat := fieldN v (704 + 128 * n + 63) (704 + 128 * n)
def hSagb (v n : Nat) : Nat := fieldN v (768 + 128 * n + 63) (768 + 128 * n)
def inCount (i : Nat) : Nat := fieldN i 11 7
def outCount (o : Nat) : Nat := fieldN o 21 17

/-- The present inputs and outputs of a handler item. -/
def hIns (v : Nat) : List InDecl :=
  (List.range 8).filterMap (fun i =>
    let x := hIn v i
    if inCount x = 0 then none else some { ch := fieldN x 6 0, count := inCount x, markers := fieldN x 19 12 })
def hOuts (v : Nat) : List OutDecl :=
  (List.range 8).filterMap (fun i =>
    let x := hOut v i
    if bitN x 22 then some { ix := i, dest := fieldN x 9 0, ch := fieldN x 16 10, count := outCount x } else none)

def cSlots (v : Nat) : Nat := fieldN v 21 17
def cLand (v : Nat) : Nat := fieldN v 51 32

def rSrc (v : Nat) : Nat := fieldN v 26 17
def rUnp (v : Nat) : Bool := bitN v 27
def rVia (v : Nat) : List (Nat × Bool) :=
  (List.range 12).filterMap (fun w =>
    let x := fieldN v (64 + 16 * w + 15) (64 + 16 * w)
    if bitN x 15 then some (fieldN x 9 0, bitN x 10) else none)
def rBnd (v : Nat) : Option (Nat × Nat) := if bitN v 53 then some (fieldN v 49 40, fieldN v 52 50) else none

def tVc (v : Nat) : Nat := fieldN v 12 10
def tKind (v : Nat) : Nat := fieldN v 15 13
def tNr (v : Nat) : Nat := fieldN v 27 26
def tRoute (v m : Nat) : Nat := fieldN v (128 + 32 * m + 31) (128 + 32 * m)

/-- The route items that carry a stage's output (R378). -/
def tOuts (v : Nat) : List Nat :=
  match tKind v with
  | 1 | 2 | 5 | 6 => [tRoute v 0]
  | 4 => (List.range (tNr v + 1)).map (tRoute v)
  | _ => []

/-- The map of a group, subgraph or template item: bytes 16 to 47. -/
def itemMap (v : Nat) : Nat := fieldN v 383 128

/-! ## Routes of an image -/

/-- The path of a route item. -/
def rPath (v : Nat) : List Hop :=
  mkPath (p8 (rSrc v)) ((rVia v).map (fun w => (p8 w.1, w.2))) (p8 (colOf v))

def rVc (v : Nat) : Nat := if rUnp v then 1 else 0

/-- The stage items at which a route item enters a stage, by router and virtual channel. -/
def rStages (stages : List Nat) (v : Nat) : List Nat :=
  ((rPath v).filter (·.stage)).filterMap (fun h =>
    stages.find? (fun t => p8 (colOf t) == h.col && tVc t == rVc v))

/-- The route ends at a stage that emits a stream of its own. -/
def rEnds (stages : List Nat) (v : Nat) : Option Nat :=
  (rStages stages v).find? (fun t => decide (1 ≤ tKind t) && decide (tKind t ≤ 6))

/-- Route item i is an output route of some stage. -/
def isStageOut (stages : List Nat) (i : Nat) : Bool := stages.any (fun t => (tOuts t).contains i)

/-- The membership map of a group of the image. -/
def groupOf (groups : List Nat) (n : Nat) : Nat := (groups.find? (fun g => fieldN g 7 0 == n)).elim 0 itemMap

/-- A route item that a multicast of its source's router emits for a member: the multicast takes in its channel. (Log
78: DEDUCED, unsafe) -/
def castOut (stages groups routes : List Nat) (v : Nat) : Bool :=
  stages.any (fun t => tKind t == 3 && colOf t == rSrc v && tVc t == rVc v && rEnds stages v != some t &&
    bitN (groupOf groups (fieldN t 23 16)) (p8 (colOf v)) &&
    routes.any (fun u => rEnds stages u == some t && chanOf u == chanOf v))

/-- The route items that outputs of columns feed. -/
def colRoutes (b : List Byte) : List Nat :=
  let rs := imgItems b 3
  let ss := imgItems b 4
  ((zipW (fun i v => (i, v)) (List.range rs.length) rs).filter (fun x =>
    !isStageOut ss x.1 && !castOut ss (imgItems b 6) rs x.2)).map (·.2)

/-! ## Scopes (R137, R157, R159) -/

/-- The narrowest scope with one instance that holds two columns. -/
def scopeOf (a b : Nat) : Nat :=
  if a = b then 0 else if clusterMate a 0 = clusterMate b 0 then 1 else if dieOf a = dieOf b then 2 else 3

/-- The columns of a map. -/
def mapCols (m : Nat) : List Nat := (List.range 256).filter (bitN m)

/-- The narrowest scope with one instance that holds all columns of a map. -/
def scopeOfMap (m : Nat) : Nat :=
  match mapCols m with
  | [] => 0
  | a :: t => t.foldl (fun s b => max s (scopeOf a b)) 0

/-! ## Refusals (R381, R383) -/

/-- A refusal: code, section kind, item index. -/
structure Refused where
  code : Nat
  kind : Nat
  ix : Nat
  deriving DecidableEq, Repr

/-- SYS.TVAL of cause 0x287. -/
def Refused.tval (r : Refused) : Word := w64 (r.code % 256 + 2 ^ 8 * (r.kind % 256) + 2 ^ 16 * (r.ix % 2 ^ 32))

/-- The first code of a list whose condition holds. (Log 88: DEDUCED, unsafe) -/
def firstCode (l : List (Nat × Bool)) : Option Nat := (l.find? (·.2)).map (·.1)

/-- The first refused item of a list; a check sees the items before it. -/
def checkItems (kind : Nat) (f : List Nat → Nat → List (Nat × Bool)) : List Nat → List Nat → Option Refused
  | _, [] => none
  | before, v :: t => match firstCode (f before v) with
    | some c => some { code := c, kind := kind, ix := before.length }
    | none => checkItems kind f (before ++ [v]) t

def distinct : List Nat → Bool
  | [] => true
  | a :: t => !t.contains a && distinct t

/-- The cross check of one code over the items of a kind. (Log 88: DEDUCED, unsafe) -/
def crossCheck (code kind : Nat) (items : List Nat) (f : Nat → Nat → Bool) : Option Refused :=
  (findIx (fun (x : Nat × Nat) => f x.1 x.2) (zipW (fun i v => (i, v)) (List.range items.length) items)).map
    (fun i => { code := code, kind := kind, ix := i })

/-- A column identifier outside the region or the package. -/
def outside (pos cols id : Nat) : Bool := !(bitN cols (p8 id) && id / 256 == pos)

def headerCheck (b : List Byte) : Option Refused :=
  let h := imgNat b 0 64
  (firstCode [(1, fieldN h 31 0 != 0x31534C4D || fieldN h 47 32 != 1 || imgLen b % 16 != 0 || imgNsec b == 0 ||
      decide (24 < imgNsec b) || decide (imgLen b < 64 + 16 * imgNsec b) || decide (b.length < imgLen b)),
    (2, fieldN h 63 50 != 0 || fieldN h 127 112 != 0 || fieldN h 511 384 != 0)]).map (fun c => { code := c, kind := 0, ix := 0 })

/-- The section table: each entry against those before it. (Log 152: DEDUCED, unsafe) -/
def sectCheck (b : List Byte) : List Sect → List Sect → Option Refused
  | _, [] => none
  | before, s :: t =>
    let e := sectEnd b s.kind s.count s.off
    let overlap := before.any (fun x => decide (x.off < e) && decide (s.off < sectEnd b x.kind x.count x.off))
    match firstCode [(2, s.rz), (3, s.kind == 0 || decide (13 < s.kind) || before.any (fun x => x.kind == s.kind) ||
        s.off % 16 != 0 || decide (s.off < 64 + 16 * imgNsec b) || decide (imgLen b < e) || overlap)] with
    | some c => some { code := c, kind := s.kind, ix := before.length }
    | none => sectCheck b (before ++ [s]) t

/-! ### Items of each kind -/

def handlerCheck (pos cols : Nat) (before : List Nat) (v : Nat) : List (Nat × Bool) :=
  let ins := hIns v
  let outs := hOuts v
  let mine := before.filter (fun u => colOf u == colOf v)
  [(0x02, bitN v 23 || fieldN v 63 48 != 0 || fieldN v 95 84 != 0 || fieldN v 703 660 != 0 || fieldN v 642 640 != 0 ||
      (!hTask v && hCounter v != 0) || (List.range 4).any (fun n => fieldN (hSaga v n) 14 11 != 0) ||
      (List.range 8).any (fun i => fieldN (hIn v i) 31 20 != 0 || decide (16 < inCount (hIn v i)) ||
        fieldN (hOut v i) 31 23 != 0 || decide (16 < outCount (hOut v i)))),
   (0x04, outside pos cols (colOf v)),
   (0x05, decide (47 < hLevel v) || fieldN v 39 24 == 0 || fieldN v 66 64 != 0),
   (0x06, mine.any (fun u => hIx u == hIx v)),
   (0x07, if hTask v then !ins.isEmpty else ins.isEmpty),
   (0x08, mine.any (fun u => (hIns u).any (fun i => ins.any (fun j => i.ch == j.ch)))),
   (0x09, decide (16 < outs.foldl (fun n o => n + o.count) 0) || !distinct (outs.map (·.ch)) ||
      ins.any (fun i => (List.range 8).any (fun k => bitN i.markers k && !outs.any (fun o => o.ix == k)))),
   (0x0A, mine.any (fun u => hAcc u &&& hAcc v != 0 && hLevel u / 12 != hLevel v / 12)),
   (0x18, (List.range 4).any (fun n => (bitN (hSaga v n) 8 && fieldN (hSaga v n) 10 9 == 3) ||
      decide (2 ^ 32 ≤ hSagb v n)))]

def channelCheck (pos cols : Nat) (before : List Nat) (v : Nat) : List (Nat × Bool) :=
  let sum := (v :: before.filter (fun u => colOf u == colOf v)).foldl (fun n u => n + cSlots u) 0
  [(0x02, fieldN v 31 22 != 0 || fieldN v 63 52 != 0 || fieldN v 37 32 != 0),
   (0x04, outside pos cols (colOf v)),
   (0x0B, cSlots v == 0 || decide (16 < cSlots v) || decide (512 < sum))]

/-- Log 89: DEDUCED, unsafe. -/
def routeCheck (pos cols : Nat) (_ : List Nat) (v : Nat) : List (Nat × Bool) :=
  [(0x02, fieldN v 31 29 != 0 || fieldN v 63 54 != 0 || (bitN v 28 && fieldN v 255 64 != 0) || decide (4 < fieldN v 52 50) ||
      (List.range 12).any (fun w => fieldN v (64 + 16 * w + 14) (64 + 16 * w + 11) != 0)),
   (0x04, outside pos cols (colOf v) || (rVia v).any (fun w => outside pos cols w.1) ||
      (rBnd v).any (fun n => outside pos cols n.1))]

/-- A stage's parameters are out of range (R71 to R76); a payload holds at most 504 bytes. -/
def stageBad (v : Nat) : Bool :=
  let e := fieldN v 40 32
  let off := fieldN v 56 48
  decide (5 < tVc v) || match tKind v with
    | 1 | 2 => e == 0 || decide (504 < e * (if fieldN v 25 24 = 2 then 2 else 4))
    | 4 => tNr v == 0 || decide (504 ≤ off)
    | 5 => tNr v == 0
    | 7 => off % 4 != 0 || decide (504 < off + 4)
    | _ => false

/-- A stage item. A carry and its paired steer in one router would both need its one slot of VC1 (R66, R70), so an image with
such a pair is refused. (Log 137: DEDUCED, unsafe) -/
def stageCheck (pos cols : Nat) (before : List Nat) (v : Nat) : List (Nat × Bool) :=
  [(0x02, fieldN v 31 28 != 0 || fieldN v 47 41 != 0 || bitN v 63 || fieldN v 95 66 != 0 || fieldN v 25 24 == 3 ||
      fieldN v 65 64 == 3),
   (0x0F, outside pos cols (colOf v) || before.any (fun u => colOf u == colOf v && tVc u == tVc v)),
   (0x10, stageBad v)]

/-- Log 89: DEDUCED, unsafe. -/
def filterCheck (_ : List Nat) (v : Nat) : List (Nat × Bool) :=
  let bad (f : Nat) : Bool := f == 0 || f == 15
  [(0x02, fieldN v 7 3 != 0 || fieldN v 31 22 != 0 || fieldN v 127 41 != 0),
   (0x11, (bitN v 0 && (bad (fieldN v 11 8) || bad (fieldN v 15 12))) || decide (5 ≤ fieldN v 18 16) || fieldN v 21 20 == 3)]

/-- Log 89: DEDUCED, unsafe. -/
def groupCheck (cols : Nat) (before : List Nat) (v : Nat) : List (Nat × Bool) :=
  [(0x02, fieldN v 127 8 != 0),
   (0x04, (mapCols (itemMap v)).any (fun p => !bitN cols p)),
   (0x12, (mapCols (itemMap v)).any (fun p => decide (4 < ((v :: before).filter (fun u => bitN (itemMap u) p)).length)))]

def bellCheck (before : List Nat) (v : Nat) : List (Nat × Bool) :=
  [(0x02, fieldN v 7 5 != 0 || fieldN v 63 16 != 0), (0x13, before.any (fun u => fieldN u 4 0 == fieldN v 4 0))]

def subgraphCheck (cols : Nat) (before : List Nat) (v : Nat) : List (Nat × Bool) :=
  [(0x02, fieldN v 127 3 != 0 || decide (4 < fieldN v 2 0)),
   (0x04, (mapCols (itemMap v)).any (fun p => !bitN cols p)),
   (0x14, before.any (fun u => itemMap u &&& itemMap v != 0) || decide (fieldN v 2 0 < scopeOfMap (itemMap v)))]

def joinCheck (pos cols : Nat) (_ : List Nat) (v : Nat) : List (Nat × Bool) :=
  let u := fieldN v 80 64
  let a := fieldN v 106 96
  [(0x02, fieldN v 31 22 != 0 || fieldN v 63 52 != 0 || fieldN v 95 81 != 0 || fieldN v 127 107 != 0 || fieldN v 37 32 != 0),
   (0x04, outside pos cols (colOf v)),
   (0x16, decide (u < 64) || decide (16384 < u) || a == 0 || decide (1024 < a))]

def gLayer (v : Nat) : Nat := fieldN v 20 18
def gForm (v : Nat) : Nat := fieldN v 22 21
def gFmt (v : Nat) : Nat := fieldN v 26 23
def gBase (v : Nat) : Nat := fieldN v 37 27
def gLen (v : Nat) : Nat := fieldN v 49 38
def gH (v : Nat) : Nat := fieldN v 17 10
def gSrc (v : Nat) : Nat := fieldN v 110 64

/-- Two handle items of one layer meet. -/
def gMeets (u v : Nat) : Bool :=
  gLayer u == gLayer v && decide (gBase u < gBase v + gLen v) && decide (gBase v < gBase u + gLen u)

def handleCheck (pos cols : Nat) (before : List Nat) (v : Nat) : List (Nat × Bool) :=
  [(0x02, fieldN v 63 50 != 0 || fieldN v 127 111 != 0 || gSrc v % 4096 != 0),
   (0x04, outside pos cols (colOf v)),
   (0x17, decide (2048 < gBase v + gLen v) || gForm v == 3 || gFmt v == 0 || gFmt v == 15 || (gForm v == 1 && gFmt v != 11) ||
      before.any (fun u => colOf u == colOf v && gMeets u v))]

def pN (v : Nat) : Nat := fieldN v 67 64
def pTrig (v : Nat) : Nat := fieldN (itemMap v) 174 168
def pDone (v : Nat) : Nat := fieldN (itemMap v) 181 175

/-- The descriptor of a template item passes the checks of R317. -/
def templateOk (p d : Nat) : Bool :=
  descOk { Template.empty with trig := fieldN d 174 168, doneKey := fieldN d 181 175 } d &&
    match copyCheck p (descDst d) (descSrc d) (descLen d) (bitN d 160) with
    | .ok _ => true
    | .error _ => false

def templateCheck (pos cols : Nat) (before : List Nat) (v : Nat) : List (Nat × Bool) :=
  [(0x02, fieldN v 63 10 != 0 || fieldN v 127 68 != 0),
   (0x04, outside pos cols (colOf v)),
   (0x1A, before.any (fun u => colOf u == colOf v && pN u == pN v) || !templateOk (p8 (colOf v)) (itemMap v))]

def dataOff (v : Nat) : Nat := fieldN v 83 64
def dataLen (v : Nat) : Nat := fieldN v 127 96

def dataCheck (pos cols : Nat) (_ : List Nat) (v : Nat) : List (Nat × Bool) :=
  [(0x02, fieldN v 63 10 != 0 || fieldN v 95 84 != 0 || decide (2 ^ 20 < dataOff v + dataLen v)),
   (0x04, outside pos cols (colOf v))]

def messageCheck (pos cols : Nat) (_ : List Nat) (v : Nat) : List (Nat × Bool) :=
  [(0x02, fieldN v 63 20 != 0 || fieldN v 127 64 != 0), (0x04, outside pos cols (colOf v))]

/-! ## Placement (R417, R418): mapping m = 32 × DSWAP + 8 × RO + CO -/

def mapP (m p : Nat) : Option Nat :=
  let d := (p / 128 + m / 32) % 2
  let r := p / 16 % 8 + 2 * (m / 8 % 4)
  let c := p % 16 + 2 * (m % 8)
  if r < 8 ∧ c < 16 then some (128 * d + 16 * r + c) else none

/-- Every column of the image has a place, and dies are exchanged only for an image on one die. -/
def mapOk (b : List Byte) (m : Nat) : Bool :=
  let ps := mapCols (imgCols b)
  ps.all (fun p => (mapP m p).isSome) && (m / 32 == 0 || ps.all (fun p => decide (p < 128)) || ps.all (fun p => decide (128 ≤ p)))

/-- What a load works with: image, mapping, context tag, region number. -/
structure Ld where
  b : List Byte
  m : Nat
  tag : Nat
  rid : Nat
  deriving DecidableEq, Repr

def Ld.place (l : Ld) (p : Nat) : Nat := (mapP l.m p).getD p

/-- A column identifier of the image after placement; one of another region is taken as written (R417, R430). -/
def Ld.id (l : Ld) (x : Nat) : Nat := if bitN (imgCols l.b) (p8 x) then 256 * (x / 256) + l.place (p8 x) else x
def Ld.p (l : Ld) (x : Nat) : Nat := p8 (l.id x)

/-- A map of columns after placement. -/
def Ld.map (l : Ld) (m : Nat) : Nat := (mapCols m).foldl (fun n p => n + 2 ^ l.place p) 0
def Ld.cols (l : Ld) : List Nat := mapCols (l.map (imgCols l.b))

/-- The items of a kind that belong to column p. -/
def Ld.items (l : Ld) (k p : Nat) : List Nat := (imgItems l.b k).filter (fun v => l.p (colOf v) == p)

/-! ## Routes and stages of a placed image -/

def filterOf (v : Nat) : Filter :=
  { conv := bitN v 0, trans := bitN v 1, zr := bitN v 2, sfmt := fieldN v 11 8, dfmt := fieldN v 15 12, mode := fieldN v 18 16,
    sat := bitN v 19, tw := fieldN v 21 20, e := fieldN v 40 32 }

def Ld.route (l : Ld) (v : Nat) : Route :=
  let n := fieldN v 39 32
  { region := l.rid, cast := castOut (imgItems l.b 4) (imgItems l.b 6) (imgItems l.b 3) v, dest := l.id (colOf v), chan := chanOf v, src := l.p (rSrc v), unp := rUnp v,
    filter := if n = 0 then none else ((imgItems l.b 5)[n - 1]?).map filterOf, bnd := (rBnd v).map (fun x => (l.p x.1, x.2)),
    path := mkPath (l.p (rSrc v)) ((rVia v).map (fun w => (l.p w.1, w.2))) (l.p (colOf v)) }

/-- The routes that columns and multicast stages feed. -/
def Ld.routes (l : Ld) : List Route :=
  let rs := imgItems l.b 3
  let ss := imgItems l.b 4
  (zipW (fun i v => (i, v)) (List.range rs.length) rs).filterMap (fun x => if isStageOut ss x.1 then none else some (l.route x.2))

def Ld.stage (l : Ld) (v : Nat) : Nat × Stage :=
  let rs := imgItems l.b 3
  let out (i : Nat) : Option Route := (rs[i]?).map l.route
  let pair := ((imgItems l.b 4)[tRoute v 2]?).elim 0 (fun u => stageKey l.rid (l.p (colOf u)) (tVc u))
  (stageKey l.rid (l.p (colOf v)) (tVc v),
   { region := l.rid, kind := tKind v, group := fieldN v 23 16, efmt := fieldN v 25 24, e := fieldN v 40 32,
     off := fieldN v 56 48, lim := fieldN v 60 57, cmp := fieldN v 62 61, ctype := fieldN v 65 64, const := fieldN v 127 96,
     outs := (tOuts v).filterMap out, loop := if tKind v = 6 then out (tRoute v 1) else none, pair := pair, seq := 0,
     waiting := [], inflight := 0, stopped := false, opened := [], credits := [] })

def Ld.stages (l : Ld) : List (Nat × Stage) := (imgItems l.b 4).map l.stage

/-- The fabric that the image alone configures, unplaced. -/
def netOf (b : List Byte) : State :=
  let l : Ld := { b := b, m := 0, tag := 0, rid := 0 }
  { State.reset with routes := l.routes, stages := l.stages,
                     groups := (imgItems b 6).foldl (fun m v => sput 0 m (fieldN v 7 0) (itemMap v)) [] }

/-- What feeds channel `ch` of column `dest`: delivering routes of columns and stages, and multicasts with a copy for it. -/
def State.feedersAt (s : State) (dest ch : Nat) : List Feeder :=
  let here (r : Route) : Bool := r.dest == dest && r.chan == ch && (s.endsAt r).isNone
  s.stages.flatMap (fun x => (x.2.outs.filter here).map (fun _ => .stage x.1 (outKey dest ch))) ++
  (s.stages.filter (fun x => x.2.kind == 3 && (s.stageMembers x.2).contains (p8 dest) && !(s.feeds x.1 (some ch)).isEmpty &&
    (s.castRoute x.1 ch (p8 dest)).elim true (fun r => (s.endsAt r).isNone))).map (fun x => .stage x.1 (outKey dest ch)) ++
  (s.routes.filter (fun r => !r.cast && here r)).map (fun r => .col r.src (outKey dest ch))

/-- The streams that come through a feeder: a reduction, a merge and a carry make one of all they take in; a steer and a
multicast pass on each (R63). -/
def State.streamsOf (s : State) (f : Feeder) : Nat → Nat
  | 0 => 0
  | fuel + 1 => match f with
    | .col _ _ => 1
    | .stage k key => match s.stageAt k with
      | none => 0
      | some t => if t.kind = 3 ∨ t.kind = 4 then (s.inputsOf k key).foldl (fun n g => n + s.streamsOf g fuel) 0 else 1

/-- The routers a route's messages pass: up to the stage that emits a stream of its own. -/
def State.runOf (s : State) (r : Route) : List Hop :=
  match s.endsAt r with
  | none => r.path
  | some k =>
    let last (h : Hop) : Bool := h.stage && stageKey r.region h.col r.vc == k
    r.path.takeWhile (fun h => !last h) ++ (r.path.filter last).take 1

/-- The widest scope of a boundary node passed, plus 1, after the hops of a path on route `r`; `best` before. -/
def Route.passed (r : Route) (hops : List Hop) (best : Nat) : Nat :=
  match r.bnd with
  | some (n, sc) => if hops.any (fun h => h.col == n) then max best (sc + 1) else best
  | none => best

/-- The consumers that a route's messages reach through stages, each with the widest scope of a boundary node on the way,
plus 1; 0 for none (R157). -/
def State.reached (s : State) (r : Route) (best : Nat) : Nat → List (Nat × Nat)
  | 0 => []
  | fuel + 1 => match s.endsAt r with
    | none => [(p8 r.dest, r.passed r.path best)]
    | some k => match s.stageAt k with
      | none => []
      | some t =>
        let b := r.passed (s.runOf r) best
        if t.kind = 3 then (s.stageMembers t).flatMap (fun m =>
          if m = p8 r.dest then [(m, r.passed r.path best)]
          else match s.castRoute k r.chan m with
            | some o => s.reached o b fuel
            | none => [(m, r.passed (mkPath (stageCol k) [] m) b)])
        else t.outs.flatMap (fun o => s.reached o b fuel)

/-- A consumer of the route in another subgraph than its producer's, of map `a`, is reached without a boundary node whose scope
holds both; `sub` gives the map of a column's subgraph (R157, R159). -/
def State.boundaryBad (s : State) (r : Route) (a : Nat) (sub : Nat → Nat) : Bool :=
  (s.reached r 0 (s.stages.length + 1)).any (fun x =>
    let c := sub x.1
    a != c && decide (x.2 < scopeOfMap (a ||| c) + 1))

/-- Code 0x1D: an item without a channel, of a wrong kind, or beyond its channel's slots. The bits of an IMSG item that R422
calls zero are not looked at. (Log 143: DESIGN CHOICE, unsafe) -/
def initCheck (b : List Byte) : List Nat → List Nat → Option Refused
  | _, [] => none
  | before, v :: t =>
    let units (l : List Nat) : Nat := l.foldl (fun n u => n + fieldN u 19 17 + 1) 0
    let ch := (imgItems b 2).find? (fun c => colOf c == colOf v && chanOf c == chanOf v)
    let used := units (v :: before.filter (fun u => colOf u == colOf v && chanOf u == chanOf v))
    if ch.isNone ∨ 2 < fieldN (v / 2 ^ 128) 20 17 ∨ ch.elim 0 cSlots < used then
      some { code := 0x1D, kind := 13, ix := before.length }
    else initCheck b (before ++ [v]) t

/-! ### Across sections -/

/-- The local-store areas of a column that must be disjoint (0x19): kind, item, offset, bytes. -/
def areasOf (b : List Byte) (c : Nat) : List (Nat × Nat × Nat × Nat) :=
  let num (k : Nat) : List (Nat × Nat) := zipW (fun i v => (i, v)) (List.range (imgItems b k).length) (imgItems b k)
  ((num 1).filterMap (fun x => if colOf x.2 = c ∧ hTask x.2 = true then some (1, x.1, hCounter x.2, 8) else none)) ++
  ((num 2).filterMap (fun x => if colOf x.2 = c then some (2, x.1, cLand x.2, 64 * cSlots x.2) else none)) ++
  ((num 9).filterMap (fun x => if colOf x.2 = c then some (9, x.1, fieldN x.2 51 32, 64 * fieldN x.2 80 64) else none))

/-- The first area that meets an earlier one or passes the end of the local store. -/
def areaClash : List (Nat × Nat × Nat × Nat) → List (Nat × Nat × Nat × Nat) → Option Refused
  | _, [] => none
  | before, (k, i, o, n) :: t =>
    if 2 ^ 20 < o + n ∨ before.any (fun (x : Nat × Nat × Nat × Nat) =>
        decide (x.2.2.1 < o + n) && decide (o < x.2.2.1 + x.2.2.2)) = true then
      some { code := 0x19, kind := k, ix := i }
    else areaClash (before ++ [(k, i, o, n)]) t

/-- Crossings of the die-to-die connection, in the direction away from die d. -/
def crossings (d : Nat) : List Hop → Nat
  | h :: k :: t => (if dieOf h.col = d ∧ dieOf k.col ≠ d then 1 else 0) + crossings d (k :: t)
  | _ => 0

/-- The subgraph item that holds a column. -/
def subOf (subs : List Nat) (id : Nat) : Option Nat := subs.find? (fun s => bitN (itemMap s) (p8 id))

/-- The outputs of a column to a channel that its handlers declare, unpaced or not, and whether a template completes there. -/
def outputsTo (hs ts : List Nat) (c dest ch : Nat) : List Bool × Bool :=
  ((hs.filter (fun h => colOf h == c)).flatMap (fun h =>
      ((hOuts h).filter (fun o => o.dest == dest && o.ch == ch)).map (fun o => o.count == 0)),
   ts.any (fun t => colOf t == c && pDone t == ch))

/-- No output feeds the route, or one disagrees with its UNP. -/
def unpaired (outs : List Bool × Bool) (unp : Bool) : Bool := (outs.1.isEmpty && !outs.2) || outs.1.any (· != unp)

/-- Log 88: DEDUCED, unsafe; 152: DEDUCED, unsafe. -/
def acrossChecks (b : List Byte) (pos : Nat) : List (Option Refused) :=
  let cols := imgCols b
  let hs := imgItems b 1
  let cs := imgItems b 2
  let rs := imgItems b 3
  let ss := imgItems b 4
  let gs := imgItems b 6
  let subs := imgItems b 8
  let hn := imgItems b 10
  let ts := imgItems b 11
  let net := netOf b
  let l : Ld := { b := b, m := 0, tag := 0, rid := 0 }
  let fed := colRoutes b
  let gmap (n : Nat) : Nat := groupOf gs n
  let submap (p : Nat) : Nat := (subOf subs p).elim 0 itemMap
  let into (t : Nat) : List Nat := rs.filter (fun u => rEnds ss u == some t)
  let leaves (t i v : Nat) : Bool := (tOuts t).contains i || castOut [t] gs (into t) v
  [ crossCheck 0x07 1 hs (fun _ h => (hIns h).any (fun i =>
      decide (((cs.find? (fun c => colOf c == colOf h && chanOf c == i.ch)).elim 0 cSlots) < i.count))),
    crossCheck 0x08 1 hs (fun _ h => (hIns h).any (fun i => ts.any (fun t => colOf t == colOf h && pTrig t == i.ch))),
    crossCheck 0x0C 2 cs (fun _ c => (net.feedersAt (colOf c) (chanOf c)).foldl (fun n f =>
      n + net.streamsOf f (ss.length + 1)) 0 != 1),
    crossCheck 0x0C 3 rs (fun _ v => (rEnds ss v).isNone && !cs.any (fun c => colOf c == colOf v && chanOf c == chanOf v)),
    crossCheck 0x0D 3 rs (fun _ v => !rUnp v && (rStages ss v).any (fun t => decide (4 ≤ tKind t))),
    crossCheck 0x0E 1 hs (fun _ h => (hOuts h).any (fun o => !outside pos cols o.dest &&
      !fed.any (fun v => rSrc v == colOf h && colOf v == o.dest && chanOf v == o.ch))),
    crossCheck 0x0E 3 rs (fun i v => !ss.any (fun t => leaves t i v) && !outside pos cols (rSrc v) &&
      unpaired (outputsTo hs ts (rSrc v) (colOf v) (chanOf v)) (rUnp v)),
    crossCheck 0x0E 3 rs (fun i v => ss.any (fun t => leaves t i v && (into t).any (fun u => rUnp u != rUnp v &&
      (tKind t != 3 || chanOf u == chanOf v)))),
    crossCheck 0x0E 11 ts (fun _ t => !fed.any (fun v => rSrc v == colOf t && chanOf v == pDone t)),
    crossCheck 0x10 4 ss (fun _ t => (decide (1 ≤ tKind t) && decide (tKind t ≤ 3) && gmap (fieldN t 23 16) == 0) ||
      (tKind t == 6 && match ss[tRoute t 2]? with
        | some u => tKind u != 4 || colOf u != colOf t
        | none => true) || (tKind t == 6 && decide (rs.length ≤ tRoute t 1)) ||
        (tOuts t).any (fun i => decide (rs.length ≤ i))),
    crossCheck 0x11 3 rs (fun _ v => decide ((imgItems b 5).length < fieldN v 39 32) || (fieldN v 39 32 != 0 &&
      decide (64 < (rs.filter (fun u => fieldN u 39 32 != 0 && rSrc u == rSrc v)).length))),
    crossCheck 0x12 7 (imgItems b 7) (fun _ l => gmap (fieldN l 15 8) == 0),
    crossCheck 0x13 7 (imgItems b 7) (fun _ l => (mapCols (gmap (fieldN l 15 8))).any (fun p => !bitN cols p)),
    (if (mapCols cols).all (fun p => (subOf subs p).isSome) then none else some { code := 0x14, kind := 8, ix := subs.length }),
    crossCheck 0x15 3 rs (fun i v => !outside pos cols (rSrc v) && !ss.any (fun t => leaves t i v) &&
      net.boundaryBad (l.route v) (submap (rSrc v)) submap),
    crossCheck 0x16 9 (imgItems b 9) (fun _ j =>
      !(hs.any (fun h => colOf h == colOf j && hIx h == fieldN j 15 10 && !hTask h && decide (2 ≤ (hIns h).length)) &&
        hs.any (fun h => colOf h == colOf j && hIx h == fieldN j 21 16 && hTask h))),
    crossCheck 0x18 1 hs (fun _ h => (List.range 4).any (fun n => bitN (hSaga h n) 8 &&
      !hn.any (fun g => colOf g == colOf h && gH g == fieldN (hSaga h n) 7 0))),
    (mapCols cols).findSome? (fun p => areaClash [] (areasOf b (256 * pos + p))),
    crossCheck 0x1A 11 ts (fun _ t => hs.any (fun h => colOf h == colOf t && (hIns h).any (fun i => i.ch == pTrig t))),
    (if [0, 1].any (fun d => decide (1024 < (rs.map (fun v => crossings d (rPath v))).foldl (· + ·) 0)) then
      some { code := 0x1B, kind := 3, ix := 0 } else none),
    initCheck b [] (imgItems b 13) ]

/-- Every check that depends only on the image, in the order of R381. `pos`: the package's place in its chain. -/
def imageCheck (b : List Byte) (pos : Nat) : Option Refused :=
  match headerCheck b with
  | some r => some r
  | none => match sectCheck b [] (imgSects b) with
    | some r => some r
    | none =>
      let cols := imgCols b
      let it (k : Nat) (f : List Nat → Nat → List (Nat × Bool)) : Option Refused := checkItems k f [] (imgItems b k)
      ([it 1 (handlerCheck pos cols), it 2 (channelCheck pos cols), it 3 (routeCheck pos cols), it 4 (stageCheck pos cols),
        it 5 filterCheck, it 6 (groupCheck cols), it 7 bellCheck, it 8 (subgraphCheck cols), it 9 (joinCheck pos cols),
        it 10 (handleCheck pos cols), it 11 (templateCheck pos cols), it 12 (dataCheck pos cols),
        it 13 (messageCheck pos cols)] ++ acrossChecks b pos).findSome? (fun r => r)

end Sys2Proof.Machine
end

