-- ==== Sys2Proof/Machine/Launch.lean ====
section
/-!
DEFINITION. The dispatcher (R411 to R431): launch packets, dependences, placement, the configuration cache, loading of a
region (R380, R421), initial messages, completion (R425) and the reclaim of columns (R92).
-/
namespace Sys2Proof.Machine

/-! ## What the image makes of a column -/

def Ld.entry (l : Ld) (v : Nat) : Entry :=
  let saga := (List.range 4).map (fun n => w64 (hSaga v n))
  { col := l.p (colOf v), hidx := hIx v, task := hTask v, level := hLevel v, budget := 64 * fieldN v 39 24, acc := hAcc v,
    entry := fieldN v 83 64, arg := fieldN v 127 96, ins := hIns v,
    outs := (hOuts v).map (fun o => { o with dest := l.id o.dest }), counter := hCounter v, saga := saga,
    sagb := (List.range 4).map (fun n => w64 (hSagb v n)) }

def Ld.entries (l : Ld) (p : Nat) : List Entry := (l.items 1 p).map l.entry

/-- The column that feeds a channel item: its route's producer, or the column of the stage that emits. -/
def Ld.producer (l : Ld) (v : Nat) : Nat :=
  let ss := imgItems l.b 4
  match (imgItems l.b 3).find? (fun r => colOf r == colOf v && chanOf r == chanOf v && (rEnds ss r).isNone) with
  | some r => l.p (rSrc r)
  | none => match ss.find? (fun t => tKind t == 3 && (imgItems l.b 3).any (fun r => chanOf r == chanOf v && rEnds ss r == some t)) with
    | some t => l.p (colOf t)
    | none => 0

def Ld.chans (l : Ld) (p : Nat) : List (Nat × Chan) :=
  (l.items 2 p).foldl (fun m v => sput Chan.empty m (chanOf v)
    { slots := cSlots v, land := cLand v, producer := l.producer v, items := [], gate := [], next := 0 }) []

/-- The subgraphs of the region, and the release scope of a column's messages (R157). -/
def Ld.subs (l : Ld) : List (Nat × Nat) := (imgItems l.b 8).map (fun v => (fieldN v 2 0, l.map (itemMap v)))
def Ld.scope (l : Ld) (p : Nat) : Nat := ((l.subs).find? (fun x => bitN x.2 p)).elim 4 (·.1)

/-- The output at which a template's completions leave: the route from its column on channel DONE. -/
def Ld.doneOut (l : Ld) (v : Nat) : Nat × Bool :=
  match (colRoutes l.b).find? (fun r => rSrc r == colOf v && chanOf r == pDone v) with
  | some r => (outKey (l.id (colOf r)) (pDone v), !rUnp r)
  | none => (outKey 0 (pDone v), false)

def Ld.outs (l : Ld) (p : Nat) : List (Nat × Output) :=
  let out (paced : Bool) : Output := { Output.empty with paced := paced, scope := l.scope p }
  let hs := (l.entries p).flatMap (fun e => e.outs.map (fun o => (outKey o.dest o.ch, o.count != 0)))
  (hs ++ (l.items 11 p).map l.doneOut).foldl (fun m x => sput Output.empty m x.1 (out x.2)) []

def Ld.joins (l : Ld) (p : Nat) : List Join :=
  (l.items 9 p).map (fun v => { jidx := fieldN v 15 10, sidx := fieldN v 21 16, area := fieldN v 51 32,
                                units := fieldN v 80 64, limit := 1024 * fieldN v 106 96, cap := none })

/-- The image's templates are armed (Table 7-8). (Log 94: DEDUCED, unsafe) -/
def Ld.templates (l : Ld) (p : Nat) (m : List (Nat × Template)) : List (Nat × Template) :=
  (l.items 11 p).foldl (fun m v => sput Template.empty m (pN v)
    { Template.empty with trig := pTrig v, doneKey := (l.doneOut v).1, desc := some (itemMap v) }) m

/-- The area and the form of a handle are those of a handle item. -/
def sameHandle (h : Handle) (v : Nat) : Bool :=
  h.layer == gLayer v && h.form == gForm v && h.fmt == gFmt v && h.base == gBase v && h.len == gLen v

/-- A declared handle waits for its fill. -/
def Column.declareHandle (c : Column) (v : Nat) : Column :=
  let h : Handle := { Handle.empty with layer := gLayer v, form := gForm v, fmt := gFmt v, base := gBase v, len := gLen v,
                                        inuse := (c.handle (gH v)).inuse }
  { c with htab := sput Handle.empty c.htab (gH v) h }

/-- The fill the loader posts for a handle item at column p: no gate, no stamp. -/
def fillDesc (p v : Nat) : Nat :=
  2 ^ 4 * p + 2 ^ 14 * gH v + 2 ^ 64 * gSrc v + 2 ^ 224 * gLayer v + 2 ^ 227 * gForm v + 2 ^ 229 * gFmt v +
    2 ^ 233 * gBase v + 2 ^ 244 * gLen v

/-- What every region load does to a column (R380). (Log 94: DEDUCED, unsafe) -/
def Column.loadFresh (c : Column) : Column :=
  let htab := c.htab.foldl (fun m e => sput Handle.empty m e.1 { e.2 with valid := false, src := none }) []
  { c with
    tvec := 0, badlist := 0, wscale := [], promo := 256, numst := 0, ftzcnt := 0, earlyp := 0, hold := 0, cause := 0,
    tval := 0, tepc := 0, snapv := 0, ktb := [], ktbrr := 0, templates := [], banks := [], tiles := [], htab := htab,
    running := none, inTrap := false, chans := [], outs := [], inj := [], handlers := [], joins := [], starve := [],
    starveAt := c.cycle, boost := 0, refire := 0, stepping := 0, emptyRep := [], waves := [], nextTag := 0, rseq := 0, retained := [], short := [],
    prevOuts := [] }

/-- A handle retained through a doze that equals its item is valid at once (R458); `old` is the column before the load. -/
def Column.revive (c old : Column) (v : Nat) : Column :=
  let h := old.handle (gH v)
  if old.retained.contains (gH v) && h.valid && sameHandle h v && h.src == some (gSrc v) then
    { c with htab := sput Handle.empty c.htab (gH v) h }
  else c

/-- Log 116: DEDUCED, unsafe. -/
def Ld.retain (l : Ld) (p : Nat) (old c : Column) : Column := (l.items 10 p).foldl (fun c v => c.revive old v) c

/-- The channels, outputs and joins of the image at column p; the tag and the region. The gates of LSE commands stand. -/
def Ld.configure (l : Ld) (p : Nat) (c : Column) : Column :=
  let gated (k : Nat × Chan) : Nat × Chan := (k.1, { k.2 with gate := (c.chan k.1).gate })
  { c with chans := (l.chans p).map gated, outs := l.outs p, joins := l.joins p, region := l.rid, ctx := l.tag,
           emptyRep := [], short := [] }

/-- The entries of a freshly loaded column. -/
def Ld.handlers (l : Ld) (p : Nat) : List (Nat × HSlot) :=
  (l.entries p).foldl (fun m e => sput HSlot.empty m e.hidx { phase := false, e0 := some e, e1 := none }) []

/-- The source that a fill or refill of handle h of column p still under way will record. -/
def State.pendSrc (s : State) (p h : Nat) : Option Nat :=
  let ds := (s.lseList (dieOf p)).map (·.desc) ++ s.lsePost.map (·.2)
  ((ds.filter (fun v => lCol v % 256 == p && lHandle v == h && decide (lOp v ≤ 1) && lSrc v != 0)).getLast?).map lSrc

/-- The source that an image declares for handle h of column p. -/
def Ld.declaredSrc (l : Ld) (p h : Nat) : Option Nat := ((l.items 10 p).find? (fun v => gH v == h)).map gSrc

/-- A handle item of a successor is identical to the handle of its predecessor in column p (R384). -/
def State.holdsHandle (s : State) (pred : Option Ld) (p v : Nat) : Bool :=
  let h := (s.col p).handle (gH v)
  sameHandle h v && (s.pendSrc p (gH v) <|> h.src <|> pred.bind (fun l => l.declaredSrc p (gH v))) == some (gSrc v)

/-- Column p takes its configuration. The records of new joins take their reset values (Table 3-7); the handle items `vs` are
declared, and their fills posted. -/
def State.adopt (s : State) (l : Ld) (p : Nat) (vs : List Nat) : State :=
  let old := (s.col p).joins
  let s := s.modCol p (fun c => vs.foldl Column.declareHandle (l.configure p c))
  let new := (l.joins p).filter (fun j => !old.any (fun x => x.area == j.area && x.units == j.units))
  let s := new.foldl (fun (s : State) j => s.wrNat (.ls p j.area) 64 (2 ^ 80 * (j.units - 1))) s
  { s with lsePost := s.lsePost ++ vs.map (fun v => (2 + dieOf p, fillDesc p v)) }

/-- Local-store data of column p is written. -/
def State.loadData (s : State) (l : Ld) (p : Nat) : State :=
  (l.items 12 p).foldl (fun s v => s.wrBytes (.ls p (dataOff v)) (leBytes (dataLen v) (v / 2 ^ 128))) s

/-- Groups and bell lines (R96, R97). -/
def Ld.bellKeys (l : Ld) : List Nat :=
  (imgItems l.b 7).flatMap (fun v =>
    let g := ((imgItems l.b 6).find? (fun u => fieldN u 7 0 == fieldN v 15 8)).elim 0 (fun u => l.map (itemMap u))
    [0, 1].filterMap (fun d => if (mapCols g).any (fun p => dieOf p == d) then some (32 * d + fieldN v 4 0) else none))

def Ld.groupNos (l : Ld) : List Nat := (imgItems l.b 6).map (fun v => fieldN v 7 0)
def Ld.groupMaps (l : Ld) : List Nat := (imgItems l.b 6).map (fun v => l.map (itemMap v))

def State.loadGroups (s : State) (l : Ld) : State :=
  let s := (imgItems l.b 6).foldl (fun (s : State) v => { s with groups := sput 0 s.groups (fieldN v 7 0) (l.map (itemMap v)) }) s
  (imgItems l.b 7).foldl (fun (s : State) v =>
    let b : Bell := { group := some (fieldN v 15 8), phase := false, flags := [] }
    s.setBell (fieldN v 4 0) (members (s.groupMap (fieldN v 15 8))) b) s

/-! ## Opens and initial messages (R66, R421, R422) -/

/-- The columns and outputs that feed a channel, through stages. `fuel` bounds their number. -/
def State.producersOf (s : State) (f : Feeder) : Nat → List (Nat × Nat)
  | 0 => []
  | fuel + 1 => match f with
    | .col p key => [(p, key)]
    | .stage k key => (s.inputsOf k key).flatMap (fun g => s.producersOf g fuel)

/-- The producers of channel ch of column p in the graph of a tag. -/
def State.producers (s : State) (tag p ch : Nat) : List (Nat × Nat) :=
  s.producersOf (s.feeder tag p ch) (s.stages.length + 1)

/-- The open of a channel: its slots, and as credit those not occupied. -/
def State.openOf (s : State) (p ch : Nat) : Open :=
  let k := (s.col p).chan ch
  { col := k.producer, key := outKey p ch, cap := k.slots, credit := k.slots - k.used, tag := (s.col p).ctx, direct := false }

/-- Column p opens its channels. -/
def State.openAll (s : State) (p : Nat) : State :=
  { s with opens := s.opens ++ ((s.col p).chans.map (fun k => s.openOf p k.1)) }

/-- Channels of columns that were in the graph of the tag before are opened to their new producers among `ps`, unless their
open is still on its way: a linked region that loads again finds its consumers open (R430). -/
def State.reopen (s : State) (tag : Nat) (ps : List Nat) : State :=
  let more := (s.cols.filter (fun c => c.2.region != 0 && c.2.ctx == tag && !ps.contains c.1)).flatMap (fun c =>
    c.2.chans.flatMap (fun k =>
      if s.opens.any (fun o => o.key == outKey c.1 k.1 && o.tag == tag) then []
      else ((s.producers tag c.1 k.1).filter (fun x => ps.contains x.1)).map (fun x =>
        { s.openOf c.1 k.1 with col := x.1, key := x.2, direct := true })))
  { s with opens := s.opens ++ more }

/-- An initial-message item: placed column, channel, kind, length and payload. -/
structure Init where
  p : Nat
  m : Msg
  deriving DecidableEq, Repr

/-- The items at IMSG, as numbers. -/
def State.imsgItems (s : State) : Nat → Nat → List Nat
  | 0, _ => []
  | n + 1, a =>
    let len := fieldN (s.rdNat (.gd a) 16) 19 17
    let sz := 16 + 64 * (len + 1)
    s.rdNat (.gd a) sz :: s.imsgItems n (a + sz)

/-- The message of an item; its SEQ is counted per channel. -/
def Ld.init (l : Ld) (v : Nat) : Init :=
  let units := v / 2 ^ 128
  let p := l.p (colOf v)
  let len := fieldN v 19 17
  { p := p, m := { dest := l.id (colOf v), chan := chanOf v, kind := fieldN units 20 17, len := len, seq := 0, ctx := l.tag,
                   src := p, ferr := false, pay := leBytes (64 * (len + 1) - 8) (units / 2 ^ 64) } }

/-- An initial message is placed in its channel's slots. -/
def State.placeInit (s : State) (x : Init) : State :=
  let n := ((s.col x.p).chan x.m.chan).items.length
  ((s.place x.p { x.m with seq := n % 2 ^ 16 } 0).shortPass x.p x.m.chan).openCaptures x.p

/-! ## Loading a region (R421) -/

/-- The first start of a column: 8 cycles later per rank among the region's columns, from cycle t on. -/
def Ld.startOf (l : Ld) (t p : Nat) : Nat := t + 8 * (l.cols.filter (fun q => decide (q < p))).length

def State.stagger (s : State) (l : Ld) (ps : List Nat) : State :=
  ps.foldl (fun (s : State) p => s.modCol p (fun c => { c with startAt := l.startOf s.pktCycle p })) s

/-- The columns `ps` are set up from scratch; every handle but one retained through a doze is filled. -/
def State.loadColumns (s : State) (l : Ld) (ps : List Nat) : State :=
  ps.foldl (fun s p =>
    let s := s.modCol p (fun c => l.retain p c c.loadFresh)
    let vs := (l.items 10 p).filter (fun v => !((s.col p).handle (gH v)).valid)
    (s.adopt l p vs).modCol p (fun c => { c with handlers := l.handlers p, templates := l.templates p [] })) s

/-- The routes with those of a region that loads, which replace what an earlier region of the tag left for the same
stream. (Log 95: DEDUCED, unsafe) -/
def State.routesFor (s : State) (l : Ld) : List Route :=
  let new := l.routes
  s.routes.filter (fun x => !(s.ofTag l.tag x && new.any (fun y => y.src == x.src && y.dest == x.dest && y.chan == x.chan))) ++ new

/-- The fabric with the routes, stages, groups and bell lines of a region. -/
def State.withFabric (s : State) (l : Ld) : State :=
  { s with routes := s.routesFor l, stages := s.stages ++ l.stages }.loadGroups l

/-- The tables of the fabric take the region: routes, stages, groups and bell lines. Columns that had left its tag stay marked
while another loaded region holds it, but for its own (R93, R430). -/
def State.enlist (s : State) (l : Ld) (r : Region) : State :=
  let held := s.regions.any (fun x => x.ctx == l.tag)
  let fresh (k : Nat) : Bool := k / 256 == l.tag && (!held || l.cols.contains (k % 256))
  { s with regions := s.regions ++ [{ r with loaded := s.pktCycle }], nextRegion := s.nextRegion + 1,
           retired := s.retired.filter (fun k => !fresh k) }.withFabric l

/-- The last steps of a load, for the columns `ps`: opens, with the initial messages placed before them, and the stagger. -/
def State.openRegion (s : State) (l : Ld) (ps msgs : List Nat) : State :=
  let s := ((msgs.map l.init).filter (fun x => ps.contains x.p)).foldl State.placeInit s
  ((ps.foldl State.openAll s).reopen l.tag l.cols).stagger l ps

/-- The whole load of a region on free columns. -/
def State.loadRegion (s : State) (l : Ld) (r : Region) (msgs : List Nat) : State :=
  ((l.cols.foldl (fun s p => s.loadData l p) (s.loadColumns l l.cols)).enlist l r).openRegion l l.cols msgs

/-! ## The configuration cache (R420) -/

/-- The dies on which a mapping puts columns. (Log 90: DEDUCED, unsafe) -/
def diesOf (b : List Byte) (m : Nat) : List Nat :=
  [0, 1].filter (fun d => (mapCols (imgCols b)).any (fun p => ((mapP m p).map dieOf) == some d))

def State.cachedImg (s : State) (image die : Nat) : Option (List Byte) :=
  (s.cache.find? (fun c => c.image == image && c.die == die)).map (·.bytes)

/-- The image as the lowest die that holds it has it. -/
def State.cachedAny (s : State) (image : Nat) : Option (List Byte) := (s.cachedImg image 0) <|> (s.cachedImg image 1)

/-- The image as it is loaded under mapping m: the entry of the lowest die on which m puts a column. -/
def State.cachedAt (s : State) (image m : Nat) : Option (List Byte) :=
  (s.cachedAny image).map (fun b => ((diesOf b m).findSome? (s.cachedImg image)).getD b)

/-- A loaded region with columns on the die uses the image. -/
def State.imageUsed (s : State) (die image : Nat) : Bool :=
  s.regions.any (fun r => r.image == image && (mapCols r.cols).any (fun p => dieOf p == die))

/-- Enter an image in a die's cache, replacing the least recently used entry that no loaded region uses. (Log 125:
DEDUCED, unsafe) -/
def State.enterCache (s : State) (die image : Nat) (b : List Byte) : Option State :=
  let e : Cached := { die := die, image := image, bytes := b, used := s.pktCycle, doomed := false }
  let mine := s.cache.filter (fun c => c.die == die)
  if mine.length < 16 then some { s with cache := s.cache ++ [e] }
  else
    let idle := mine.filter (fun c => !s.imageUsed die c.image)
    match idle with
    | [] => none
    | a :: t =>
      let v := t.foldl (fun m c => if c.used < m.used then c else m) a
      some { s with cache := s.cache.filter (fun c => !(c.die == die && c.image == v.image)) ++ [e] }

/-- CCINV: entries of the image go, those in use once no region uses it. (Log 125: DEDUCED, unsafe) -/
def State.sweepCache (s : State) : State := { s with cache := s.cache.filter (fun c => !(c.doomed && !s.imageUsed c.die c.image)) }

def State.invalidateImage (s : State) (image : Nat) : State :=
  let doom (c : Cached) : Cached := if c.image = image then { c with doomed := true } else c
  { s with ccinv := image, cache := s.cache.map doom }.sweepCache

def execCcinvWrite (v : Word) (s : State) : Out := barEvent (fun s => some (s.invalidateImage (v.toNat % 2 ^ 47))) s

/-! ## Completion (R425, Table 17-6) -/

/-- A packet of queue q completes: its record falls due. -/
def State.complete (s : State) (q seq cq tag status ctx detail : Nat) (start stop : Nat) (irq : Bool) : State :=
  s.addRecord cq (tag + 2 ^ 16 * q + 2 ^ 24 * seq + 2 ^ 40 * status + 2 ^ 48 * ctx + 2 ^ 64 * detail + 2 ^ 128 * start +
    2 ^ 192 * stop) irq

/-- The packet of queue q is dispatched: the next one is read. -/
def State.popPacket (s : State) (q : Nat) : State := (s.setLq q { s.lqOf q with pkt := none, succ := none }).pull

/-- A packet that loads nothing; messages that were held for it are discarded as stale (R424). -/
def State.endPacket (s : State) (q pk status : Nat) (detail : Word) : State :=
  let k := s.lqOf q
  let mine (f : Flight) : Bool := bitN pk 10 && decide (1 ≤ status) && s.claims k f && decide (f.msg.ctx = fieldN pk 215 208)
  let t := (s.complete q k.seq (fieldN pk 14 12) (fieldN pk 31 16) status 0 detail.toNat 0 0 (bitN pk 8)).popPacket q
  t.discardStale (fun f => mine f && !t.claimed f)

/-! ## Packets (Table 17-3, R415) -/

def pkOp (v : Nat) : Nat := fieldN v 7 0
def pkImage (v : Nat) : Nat := fieldN v 110 64
def pkCtx (v : Nat) : Nat := fieldN v 215 208
def pkPred (v : Nat) : Nat := fieldN v 223 216

/-- SYS.TVAL of cause 0x289. -/
def packetTval (q seq : Nat) : Word := w64 (q + 2 ^ 16 * seq)

/-- The valid dependences: queue, sequence number. -/
def pkDeps (v : Nat) : List (Nat × Nat) :=
  [128, 160].filterMap (fun o =>
    let d := v / 2 ^ o % 2 ^ 32
    if bitN d 6 then some (fieldN d 5 0, fieldN d 23 8) else none)

/-- A packet that breaks a rule of Table 17-3, or depends on itself or a later packet of its queue. -/
def packetBad (v q seq : Nat) : Bool :=
  !(decide (1 ≤ pkOp v) && decide (pkOp v ≤ 3)) || bitN v 11 || bitN v 15 || fieldN v 127 111 != 0 || bitN v 135 ||
  fieldN v 159 152 != 0 || bitN v 167 || fieldN v 191 184 != 0 || fieldN v 195 194 != 0 || fieldN v 207 200 != 0 ||
  fieldN v 255 224 != 0 || fieldN v 319 303 != 0 || v / 2 ^ 336 != 0 || pkImage v % 64 != 0 || fieldN v 302 256 % 16 != 0 ||
  decide (4096 < fieldN v 335 320) || (if bitN v 10 then decide (pkCtx v < 0xE0) else pkCtx v != 0) ||
  (pkOp v != 2 && pkPred v != 0) ||
  (pkDeps v).any (fun d => d.1 == q && decide (aheadOf d.2 seq < 2 ^ 15))

/-- How a dependence stands. -/
inductive Dep where
  | met
  | waits
  | failed
  deriving DecidableEq, Repr

/-- The completion record of packet n of queue q waits for its ring. -/
def State.recordWaits (s : State) (q n : Nat) : Bool :=
  s.rq.any (fun k => k.2.waiting.any (fun r => fieldN r 21 16 == q && fieldN r 39 24 == n))

/-- How a dependence stands: it resolves when the record is written (R415). -/
def State.dep (s : State) (d : Nat × Nat) : Dep :=
  let k := s.lqOf d.1
  if (k.pkt.isSome ∧ k.seq = d.2) ∨ s.regions.any (fun r => r.queue == d.1 && r.seq == d.2) = true ∨
      s.recordWaits d.1 d.2 = true then .waits
  else match k.done.reverse.find? (fun x => x.1 == d.2) with
    | some (_, st) => if st = 0 ∨ st = 5 then .met else .failed
    | none => match k.done.head? with
      | none => .waits
      | some (o, _) => if aheadOf d.2 o ≤ 2 ^ 15 then .waits else .met

/-! ## Checks against loaded state (R382, R384, R430) -/

def State.regionCols (s : State) (id : Nat) : List Nat := (s.cols.filter (fun c => c.2.region == id)).map (·.1)
def State.regionOf (s : State) (id : Nat) : Option Region := s.regions.find? (fun r => r.id == id)

/-- The outputs by which a loaded column feeds channel (dest, ch): unpaced or not, and whether a template does. -/
def Column.outputsTo (c : Column) (dest ch : Nat) : List Bool × Bool :=
  (c.entries.flatMap (fun e => (e.outs.filter (fun o => o.dest == dest && o.ch == ch)).map (fun o => o.count == 0)),
   c.templates.any (fun t => t.2.doneKey == outKey dest ch))

/-- The same of a column that the image loads. -/
def Ld.outputsTo (l : Ld) (p dest ch : Nat) : List Bool × Bool :=
  ((l.entries p).flatMap (fun e => (e.outs.filter (fun o => o.dest == dest && o.ch == ch)).map (fun o => o.count == 0)),
   (l.items 11 p).any (fun v => (l.doneOut v).1 == outKey dest ch))

/-- The loaded linked region that holds column p. -/
def State.linkedAt (s : State) (l : Ld) (p : Nat) : Option Region :=
  (s.regionOf (s.col p).region).filter (fun r => r.chained && r.ctx == l.tag)

/-- The map of a region's subgraph that holds column p. -/
def subMap (subs : List (Nat × Nat)) (p : Nat) : Nat := (subs.find? (fun x => bitN x.2 p)).elim 0 (·.2)

/-- A loaded region linked with the one that loads has an output to a column of it without a route, or a route from one of its
columns without an output (R430). -/
def State.linkLack (s : State) (l : Ld) : Bool :=
  let rs := imgItems l.b 3
  let linked := s.regions.filter (fun r => r.chained && r.ctx == l.tag)
  s.cols.any (fun c => linked.any (fun r => r.id == c.2.region) && c.2.entries.any (fun e => e.outs.any (fun o =>
    o.dest / 256 == s.proctor.chainPos && l.cols.contains (p8 o.dest) &&
      !rs.any (fun v => l.p (rSrc v) == c.1 && l.id (colOf v) == o.dest && chanOf v == o.ch && rUnp v == (o.count == 0))))) ||
  s.routes.any (fun r => linked.any (fun x => x.id == r.region) && l.cols.contains r.src &&
    unpaired (l.outputsTo r.src r.dest r.chan) r.unp)

/-- Pairing of routes between linked regions as the later one loads: codes 0x0E and 0x15 (R430). (Log 87: DEDUCED,
unsafe) -/
def State.linkCheck (s : State) (l : Ld) : Option Refused :=
  let cols := l.cols
  let rs := imgItems l.b 3
  let mine := crossCheck 0x0E 3 rs (fun _ v =>
    let p := l.p (rSrc v)
    !cols.contains p && (s.linkedAt l p).isSome && unpaired ((s.col p).outputsTo (l.id (colOf v)) (chanOf v)) (rUnp v))
  let theirs := crossCheck 0x0E 1 (imgItems l.b 1) (fun _ h => (l.entry h).outs.any (fun o =>
    let p := p8 o.dest
    !cols.contains p && (s.linkedAt l p).isSome &&
      !s.routes.any (fun r => s.ofTag l.tag r && r.src == l.p (colOf h) && r.dest == o.dest && r.chan == o.ch &&
        r.unp == (o.count == 0))))
  let lack := if s.linkLack l then some { code := 0x0E, kind := 0, ix := 0 } else none
  let bnd := crossCheck 0x15 3 rs (fun _ v =>
    let p := l.p (rSrc v)
    !cols.contains p && match s.linkedAt l p with
      | none => false
      | some r => (s.withFabric l).boundaryBad (l.route v) (subMap r.subs p) (subMap l.subs))
  let bnd2 := crossCheck 0x15 1 (imgItems l.b 1) (fun _ h => (l.entry h).outs.any (fun o =>
    match s.linkedAt l (p8 o.dest) with
    | none => false
    | some r => (s.routeTo l.tag (l.p (colOf h)) o.dest o.ch).elim false (fun x =>
        s.boundaryBad x (subMap l.subs (l.p (colOf h))) (subMap r.subs))))
  [mine, theirs, lack, bnd, bnd2].findSome? (fun r => r)

/-- The image of a loaded region, as it was placed. -/
def State.ldRegion (s : State) (r : Region) : Option Ld :=
  (s.cachedAt r.image r.map).map (fun b => { b := b, m := r.map, tag := r.ctx, rid := r.id })

/-- The predecessor that the packet of queue q names: the loaded region of that tag, or the splice that has taken its place
since the packet was read (R384). (Log 148: DEDUCED, unsafe) -/
def State.predOf (s : State) (q tag : Nat) : Option Region :=
  match (s.lqOf q).succ with
  | some id => s.regionOf id
  | none => match s.regions.find? (fun r => r.ctx == tag) with
    | some r => some r
    | none => s.regions.find? (fun r => r.pred == some tag)

/-- A splice of the region is under way. -/
def State.splicing (s : State) (r : Region) : Bool := s.regions.any (fun x => x.predId == r.id)

/-- Handle n of column p is one of the region's: valid, being filled, or declared by its image. -/
def State.ownsHandle (s : State) (l : Option Ld) (p n : Nat) : Bool :=
  ((s.col p).handle n).valid || (s.pendSrc p n).isSome || l.elim false (fun l => (l.declaredSrc p n).isSome)

/-- Code 0x1C: the predecessor is not loaded, a column belongs to another region, or a handle meets another of the
predecessor without being identical to it. (Log 87: DEDUCED, unsafe) -/
def State.spliceCheck (s : State) (l : Ld) (pred : Option Region) : Option Refused :=
  match pred with
  | none => some { code := 0x1C, kind := 0, ix := 0 }
  | some r =>
    if l.cols.any (fun p => (s.col p).region != 0 && (s.col p).region != r.id) then some { code := 0x1C, kind := 0, ix := 0 }
    else crossCheck 0x1C 10 (imgItems l.b 10) (fun _ v =>
      let p := l.p (colOf v)
      let old := s.ldRegion r
      (s.col p).region == r.id && (s.col p).htab.any (fun e => s.ownsHandle old p e.1 && e.2.layer == gLayer v &&
        decide (e.2.base < gBase v + gLen v) && decide (gBase v < e.2.base + e.2.len) &&
        !(e.1 == gH v && s.holdsHandle old p v)))

/-! ## What becomes of a packet -/

/-- It waits on a dependence or on columns, or for something else; its image is to be fetched by these dies; it ends without
loading, found by the dispatcher or by a fetch; it loads under a mapping. -/
inductive Verdict where
  | wait
  | hold
  | fetch (dies : List Nat)
  | done (status : Nat) (cause : Nat) (detail : Word)
  | reject (status : Nat) (cause : Nat) (detail : Word)
  | load (m : Nat)
  deriving DecidableEq, Repr

/-- Reserved columns for urgent images, unreserved ones for the rest (R91). -/
def State.classOk (s : State) (b : List Byte) (m : Nat) : Bool :=
  (mapCols (imgCols b)).all (fun p => bitN s.urgmap ((mapP m p).getD 0) == imgUrgent b)

/-- The columns are free, or belong to the predecessor. -/
def State.colsFree (s : State) (b : List Byte) (m : Nat) (pred : Option Nat) : Bool :=
  (mapCols (imgCols b)).all (fun p => let c := s.col ((mapP m p).getD 0)
    (c.region == 0 && c.inj.isEmpty) || some c.region == pred)

/-- The paths of every route configured, those that stages emit on among them. -/
def State.circuits (s : State) : List (List Hop) :=
  s.routes.map (·.path) ++ s.stages.flatMap (fun t => t.2.outs.map (·.path))

/-- Group entries, bell lines, circuits and a tag are free, and no column comes into more than four groups (R95, R382,
R419). (Log 142: DEDUCED, unsafe) -/
def State.resourcesFree (s : State) (l : Ld) (chain : Bool) : Bool :=
  let paths := s.circuits ++ (imgItems l.b 3).map (fun v => (l.route v).path)
  let maps := s.regions.flatMap (fun r => r.groups.map s.groupMap) ++ l.groupMaps
  l.groupNos.all (fun g => !s.regions.any (fun r => r.groups.contains g)) &&
  l.bellKeys.all (fun k => !s.regions.any (fun r => r.bells.contains k)) &&
  (List.range 256).all (fun p => decide ((maps.filter (fun m => bitN m p)).length ≤ 4)) &&
  [0, 1].all (fun d => decide ((paths.map (crossings d)).foldl (· + ·) 0 ≤ 1024)) && (chain || l.tag != 0)

/-- The lowest free tag of 0x01 to 0xDF, or 0. -/
def State.freeTag (s : State) : Nat :=
  ((List.range 0xDF).map (· + 1)).find? (fun t => !s.regions.any (fun r => r.ctx == t)) |>.getD 0

def pkMaps (pk : Nat) : List Nat :=
  if bitN pk 9 then List.range 64 else [32 * b2n (bitN pk 199) + 8 * fieldN pk 193 192 + fieldN pk 198 196]

def State.ldOf (s : State) (pk : Nat) (b : List Byte) (m : Nat) : Ld :=
  { b := b, m := m, tag := if bitN pk 10 then pkCtx pk else s.freeTag, rid := s.nextRegion }

/-- The initial messages of a packet: section 13 of the image, then the items at IMSG, where 0 stands for none. -/
def State.packetMsgs (s : State) (pk : Nat) (b : List Byte) : List Nat :=
  let a := fieldN pk 302 256
  imgItems b 13 ++ s.imsgItems (if a = 0 then 0 else fieldN pk 335 320) a

/-- The mappings of a packet that its image admits. -/
def State.fitMaps (s : State) (pk : Nat) (b : List Byte) : List Nat :=
  (pkMaps pk).filter (fun m => mapOk b m && s.classOk b m)

/-- The region a splice launch succeeds. -/
def State.pkPredId (s : State) (q pk : Nat) : Option Nat := if pkOp pk = 2 then (s.predOf q (pkPred pk)).map (·.id) else none

/-- The first mapping whose columns are free, or else the first that the image admits (R417, R418). (Log 90: DEDUCED,
unsafe) -/
def State.mapFor (s : State) (q pk : Nat) (b : List Byte) : Nat :=
  let l := s.fitMaps pk b
  (l.find? (fun m => s.colsFree b m (s.pkPredId q pk))).getD (l.headD ((pkMaps pk).headD 0))

/-- The image of a packet as the caches have it. (Log 90: DEDUCED, unsafe) -/
def State.imageFor (s : State) (q pk : Nat) : Option (List Byte) :=
  (s.cachedAny (pkImage pk)).bind (fun b => s.cachedAt (pkImage pk) (s.mapFor q pk b))

/-- A die's cache has room for an entry, or one that no loaded region uses. -/
def State.cacheRoom (s : State) (die : Nat) : Bool :=
  let mine := s.cache.filter (fun c => c.die == die)
  decide (mine.length < 16) || mine.any (fun c => !s.imageUsed die c.image)

/-- A checked image against loaded state. Of a splice, what it claims is checked first, under a mapping the packet fixes or one
whose columns are free; then the packet waits for columns and resources, and the other checks are made as it is placed (R382,
R418, R430). (Log 87: DEDUCED, unsafe) -/
def State.placeVerdict (s : State) (q pk : Nat) (b : List Byte) : Verdict :=
  let bad := Verdict.done 2 0x289 (packetTval q (s.lqOf q).seq)
  let splice := pkOp pk == 2
  let pred := if splice then s.predOf q (pkPred pk) else none
  match s.fitMaps pk b with
  | [] => if bitN pk 9 then .wait else bad
  | _ :: _ =>
    if pred.any (fun r => s.splicing r) then .wait
    else
      let m := s.mapFor q pk b
      let l := s.ldOf pk b m
      let free := s.colsFree b m (pred.map (·.id))
      let refused := if splice || imgSplice b then (if splice && imgSplice b then s.spliceCheck l pred
        else some { code := 0x1C, kind := 0, ix := 0 }) else none
      if bitN pk 9 && !free then .wait
      else match refused with
      | some r => .done 1 0x287 r.tval
      | none =>
        if !free then .wait
        else if !s.resourcesFree l (bitN pk 10) then .hold
        else match [s.linkCheck l, initCheck b [] (s.packetMsgs pk b)].findSome? (fun r => r) with
          | some r => .done 1 0x287 r.tval
          | none => match (diesOf b m).filter (fun d => (s.cachedImg (pkImage pk) d).isNone) with
            | [] => .load m
            | ds => if ds.all s.cacheRoom then .fetch ds else .hold

/-- The image of a packet as it lies in GDDR 7, and the refusal of the checks that depend only on it. -/
def State.imageBytes (s : State) (pk : Nat) : List Byte :=
  let a := pkImage pk
  s.rdBytes (.gd a) (imgLen (s.rdBytes (.gd a) 64))

def State.imageBad (s : State) (pk : Nat) (b : List Byte) : Option Refused :=
  if s.capacity < pkImage pk + b.length then some { code := 1, kind := 0, ix := 0 } else imageCheck b s.proctor.chainPos

/-- An image that no cache holds is fetched when it can load, so that no part of a refused image is entered (R381). -/
def State.verdictOf (s : State) (q pk : Nat) : Verdict :=
  let k := s.lqOf q
  if packetBad pk q k.seq then .done 2 0x289 (packetTval q k.seq)
  else
    let deps := (pkDeps pk).map s.dep
    if deps.any (fun d => d == .failed) then .done 3 0 0
    else if deps.any (fun d => d == .waits) then .wait
    else if pkOp pk = 3 then .done 0 0 0
    else match s.imageFor q pk with
      | some b => s.placeVerdict q pk b
      | none =>
        let b := s.imageBytes pk
        match s.imageBad pk b with
        | some r => .reject 1 0x287 r.tval
        | none => match s.placeVerdict q pk b with
          | .done st c d => .reject st c d
          | v => v

/-- No packet is dispatched whose completion queue holds 256 waiting records (R427). -/
def State.verdict (s : State) (q pk : Nat) : Verdict :=
  if 256 ≤ (s.rqOf (fieldN pk 14 12)).waiting.length then .hold else s.verdictOf q pk

/-- The packet of a queue, with its verdict. -/
def State.packetOf (s : State) (q : Nat) : Option Nat := (s.lqOf q).pkt.map leNat

/-- A queue whose packet can be taken, or whose image can be fetched. -/
def State.readyQ (s : State) (q : Nat) : Bool :=
  match s.packetOf q with
  | none => false
  | some pk => match s.verdict q pk with
    | .wait => false
    | .hold => false
    | _ => true

/-- The image of a queue's packet is the next to be fetched. -/
def State.fetches (s : State) (q : Nat) : Bool :=
  match s.packetOf q with
  | none => false
  | some pk => match s.verdict q pk with
    | .fetch _ => true
    | .reject _ _ _ => true
    | _ => false

/-- The queue whose packet the dispatcher takes next: the highest PRI, round-robin within it (R416). -/
def State.nextQueue (s : State) : Option Nat :=
  [3, 2, 1, 0].findSome? (fun pri =>
    let last := sget 63 s.lqRr pri
    ((List.range 64).map (fun i => (last + 1 + i) % 64)).find? (fun q => (s.lqOf q).pri == pri && s.readyQ q))

/-- The queue whose image is fetched next: a fetch that a held message waits for goes ahead of every other (R424). -/
def State.nextFetch (s : State) : Option Nat :=
  match (List.range 64).find? (fun q => s.fetches q && s.flights.any (s.claims (s.lqOf q))) with
  | some q => some q
  | none => s.nextQueue

/-- The dispatcher takes the packet of queue q, which carries operation `op`. -/
def State.take (s : State) (q : Nat) (op : Nat → Bool) : Option (State × Nat) :=
  let s := s.pull
  match s.packetOf q with
  | none => none
  | some pk =>
    if op (pkOp pk) && s.nextQueue == some q then some ({ s with lqRr := sput 63 s.lqRr (s.lqOf q).pri q }, pk) else none

/-- A packet that ends without loading reports its cause. -/
def State.refuse (s : State) (q pk status cause : Nat) (detail : Word) : State :=
  (if cause = 0 then s else s.reportOnly cause 0x3FF detail).endPacket q pk status detail

/-- The region of a packet that loads. -/
def State.regionFor (s : State) (q pk : Nat) (l : Ld) : Region :=
  { id := l.rid, ctx := l.tag, queue := q, seq := (s.lqOf q).seq, tag := fieldN pk 31 16, cq := fieldN pk 14 12,
    irq := bitN pk 8, endcnt := fieldN pk 63 32, commits := 0, cols := l.map (imgCols l.b), image := pkImage pk, map := l.m,
    urgent := imgUrgent l.b, chained := bitN pk 10, pred := if pkOp pk = 2 then some (pkPred pk) else none, subs := l.subs,
    groups := l.groupNos, bells := l.bellKeys, start := none, dying := false, msgs := [], predId := 0,
    readAt := (s.lqOf q).readAt, loaded := 0 }

/-- The cache entries a launch hits have been used now. (Log 125: DEDUCED, unsafe) -/
def State.touchCache (s : State) (image : Nat) (dies : List Nat) : State :=
  { s with cache := s.cache.map (fun c => if c.image = image ∧ dies.contains c.die = true then { c with used := s.pktCycle } else c) }

/-- LAUNCH: queue q's packet with OP 1 is taken. -/
def evLaunch (q : Nat) (s : State) : Option State :=
  match s.take q (· == 1) with
  | none => none
  | some (s, pk) => match s.verdict q pk with
    | .done st c d => some (s.refuse q pk st c d)
    | .load m => match s.cachedAt (pkImage pk) m with
      | none => none
      | some b =>
        let l := s.ldOf pk b m
        some (((s.touchCache (pkImage pk) (diesOf b m)).loadRegion l (s.regionFor q pk l) (s.packetMsgs pk b)).popPacket q)
    | _ => none

def execLaunch (q : Nat) (s : State) : Out := event (evLaunch q) s

/-- NOOP_PACKET: queue q's packet with OP 3 completes with status 0 when dispatched. -/
def evNoopPacket (q : Nat) (s : State) : Option State :=
  match s.take q (· == 3) with
  | none => none
  | some (s, pk) => match s.verdict q pk with
    | .done st c d => some (s.refuse q pk st c d)
    | _ => none

def execNoopPacket (q : Nat) (s : State) : Out := event (evNoopPacket q) s

/-- BAD_PACKET: queue q's packet has a reserved OP. -/
def evBadPacket (q : Nat) (s : State) : Option State :=
  match s.take q (fun op => op == 0 || decide (3 < op)) with
  | none => none
  | some (s, pk) => match s.verdict q pk with
    | .done st c d => some (s.refuse q pk st c d)
    | _ => none

def execBadPacket (q : Nat) (s : State) : Out := event (evBadPacket q) s

/-- IMAGE_FETCH: the image of queue q's packet arrives and is checked, against loaded state too; it enters the caches of the
dies that miss, or is refused. A mapping that places no column of it is a bad packet (R417). -/
def evImageFetch (q : Nat) (s : State) : Option State :=
  let s := s.pull
  if s.nextFetch ≠ some q then none
  else match s.packetOf q with
  | none => none
  | some pk =>
    let taken := { s with lqRr := sput 63 s.lqRr (s.lqOf q).pri q }
    match s.verdict q pk with
    | .reject st c d => some (taken.refuse q pk st c d)
    | .fetch ds =>
      let b := s.imageBytes pk
      match s.imageBad pk b with
      | some r => some (taken.refuse q pk 1 0x287 r.tval)
      | none => ds.foldl (fun (o : Option State) d => o.bind (fun s => s.enterCache d (pkImage pk) b)) (some s)
    | _ => none

def execImageFetch (q : Nat) (s : State) : Out := event (evImageFetch q) s

/-! ## The end of a graph (R92, R425) -/

/-- A message of a region is left: in the mesh, in a stage, in a channel, an injection queue or a send buffer. (Log
77: DEDUCED, unsafe) -/
def State.messagesLeft (s : State) (ps : List Nat) (ctx : Nat) : Bool :=
  let ofRegion (f : Flight) : Bool := f.msg.ctx == ctx && (ps.contains (p8 f.msg.dest) || f.origins.any (fun o => ps.contains o.1))
  s.flights.any ofRegion || s.stages.any (fun t => t.2.waiting.any (fun w => ofRegion w.2)) ||
  ps.any (fun p =>
    let c := s.col p
    c.chans.any (fun k => !k.2.items.isEmpty) || !c.inj.isEmpty || [0, 1, 2, 3].any (fun b => (c.firing b).isSome))

/-- An engine command or memory access of one of the columns is outstanding. (Log 77: DEDUCED, unsafe) -/
def State.commandsLeft (s : State) (ps : List Nat) : Bool :=
  s.reqs.any (fun r => ps.contains r.col) || s.lse.any (fun l => l.2.any (fun k => ps.contains k.owner)) ||
  s.lsePost.any (fun q => ps.contains (lCol q.2 % 256)) ||
  ps.any (fun p =>
    let c := s.col p
    !(c.copyq.isEmpty && c.csusp.isEmpty && c.crun.isNone && c.kvq.isEmpty && c.ssq.isEmpty && c.mq.isEmpty && c.mrun.isNone))

/-- A column leaves its region: its handler table, channels, templates and joins are gone, and its tag is retired. -/
def Column.release (c : Column) : Column :=
  { c with region := 0, ctx := 0, handlers := [], chans := [], outs := [], joins := [], templates := [], inj := [], starve := [],
           boost := 0, refire := 0, stepping := 0, waves := [], nextTag := 0, prevOuts := [] }

def State.releaseCols (s : State) (ps : List Nat) : State :=
  let keys := ps.map (fun p => tagKey (s.col p).ctx p)
  let s := ps.foldl (fun s p => s.modCol p Column.release) s
  { s with retired := s.retired ++ keys, opens := s.opens.filter (fun o => !ps.contains (p8 (o.key / 128))),
           credits := s.credits.filter (fun o => !ps.contains (p8 (o.key / 128))) }

/-- The routes left when a region goes: those of other regions, and those a column of a linked region feeds, whose messages
still travel and are discarded at ejection (R430). (Log 95: DEDUCED, unsafe) -/
def State.routesAfter (s : State) (r : Region) : List Route :=
  s.routes.filterMap (fun x =>
    let o := (s.col (p8 x.src)).region
    if x.region ≠ r.id then some x
    else if o ≠ r.id ∧ x.src < 256 ∧ (s.regionOf o).any (fun y => y.ctx == r.ctx) = true then some { x with region := o } else none)

/-- A splice that ends before its switches leaves no wavefront of its tag. -/
def State.dropWaves (s : State) (r : Region) : State :=
  if r.pred.isNone then s
  else
    let clear (c : Column) : Column := if c.nextTag = r.ctx then { c with waves := [], nextTag := 0 } else c
    { s with wavefronts := s.wavefronts.filter (fun w => decide (w.ctx ≠ r.ctx)),
             cols := s.cols.foldl (fun m c => sput Column.reset m c.1 (clear c.2)) [] }

/-- A packet that has been read and names the region as its predecessor names from now on the splice that has taken its place
(R384). (Log 148: DEDUCED, unsafe) -/
def State.handOn (s : State) (r : Region) : State :=
  match s.regions.find? (fun x => x.pred.isSome && x.predId == r.id) with
  | none => s
  | some n =>
    let names (q : Nat) : Bool := (s.lqOf q).pkt.any (fun b => pkOp (leNat b) == 2 &&
      (s.predOf q (pkPred (leNat b))).any (fun x => x.id == r.id))
    ((List.range 64).filter names).foldl (fun s q => s.setLq q { s.lqOf q with succ := some n.id }) s

/-- Everything of a region goes: columns, groups, bell lines, routes, stages, and the opens that wait for its tag when no other
region holds it; its record falls due. -/
def State.reclaim (s : State) (r : Region) (status : Nat) : State :=
  let s := ((s.handOn r).releaseCols (s.regionCols r.id)).dropWaves r
  let rest := s.regions.filter (fun x => x.id != r.id)
  let gone (l : List Nat) (f : Region → List Nat) : List Nat := l.filter (fun g => !rest.any (fun x => (f x).contains g))
  let s := { s with regions := rest, routes := s.routesAfter r, stages := s.stages.filter (fun x => x.2.region != r.id),
                    opens := s.opens.filter (fun o => o.tag != r.ctx || rest.any (fun x => x.ctx == r.ctx)),
                    groups := (gone r.groups (·.groups)).foldl (fun m g => sput 0 m g 0) s.groups,
                    bells := (gone r.bells (·.bells)).foldl (fun m g => sput Bell.unbound m g Bell.unbound) s.bells }
  (s.sweepCache.binMoves.complete r.queue r.seq r.cq r.tag status r.ctx 0 (r.start.getD 0) s.pktCycle r.irq).pull

/-- What a predecessor's columns sent under its tag before they switched has left: messages on its routes or still to be
injected, and remote stores and accesses (R425). -/
def State.sentLeft (s : State) (r : Region) : Bool :=
  let mine : Inj → Bool := fun i => match i with
    | .msg m _ => m.ctx == r.ctx
    | .marker m _ _ => m.ctx == r.ctx
    | .store _ _ _ _ ctx _ => ctx == r.ctx
    | .wave _ => true
  s.reqs.any (fun q => q.ctx == r.ctx && bitN r.cols q.col) || s.flights.any (fun f => f.rt.region == r.id) ||
  (mapCols r.cols).any (fun p => (s.col p).inj.any mine)

/-- GRAPH_END: region n has ended, has been switched away by a splice, or has been killed and its commands have ended.
(Log 77: DEDUCED, unsafe) -/
def evGraphEnd (n : Nat) (s : State) : Option State :=
  match s.regionOf n with
  | none => none
  | some r =>
    let ps := s.regionCols n
    if r.dying then
      if s.commandsLeft ps || ps.any (fun p => [0, 1, 2, 3].any (fun b => ((s.col p).firing b).isSome)) then none
      else some (s.reclaim r 4)
    else if s.splicing r then if ps.isEmpty && !s.sentLeft r then some (s.reclaim r 5) else none
    else if r.endcnt ≠ 0 ∧ r.endcnt ≤ r.commits ∧ s.messagesLeft ps r.ctx = false ∧ s.commandsLeft ps = false then
      some (s.reclaim r 0)
    else none

def execGraphEnd (n : Nat) (s : State) : Out := event (evGraphEnd n) s

end Sys2Proof.Machine
end

