-- ==== Sys2Proof/Machine/Splice.lean ====
section
/-!
DEFINITION. Splicing (R100 to R102, R384): the load of a successor, configuration messages, wavefronts, and the switch of a
column from the predecessor to the successor. The routes and stages of both graphs stand side by side until the predecessor is
reclaimed.
-/
namespace Sys2Proof.Machine

/-- The final consumers of a route, through stages: column, channel. `fuel` bounds the stages on the way. -/
def State.sinksOf (s : State) (r : Route) : Nat → List (Nat × Nat)
  | 0 => []
  | fuel + 1 => match (s.endsAt r).bind s.stageAt with
    | none => [(p8 r.dest, r.chan)]
    | some t =>
      if t.kind = 3 then
        let k := (s.endsAt r).getD 0
        (s.stageMembers t).flatMap (fun m => (s.castRoute k r.chan m).elim [(m, r.chan)] (fun o => s.sinksOf o fuel))
      else (t.outs.flatMap (fun o => s.sinksOf o fuel)).eraseDups

/-- The channels of a column, each with the columns of its graph that feed it. -/
def State.inputs (s : State) (p : Nat) : List (Nat × List Nat) :=
  let c := s.col p
  let m := (s.regionOf c.region).elim 0 (·.cols)
  c.chans.map (fun k => (k.1, (((s.producers c.ctx p k.1).map (·.1)).filter (bitN m)).eraseDups))

/-- A column that no column of its graph feeds. -/
def State.isSource (s : State) (p : Nat) : Bool := (s.inputs p).all (fun i => i.2.isEmpty)

/-- A wavefront of the dispatcher or a column. -/
def waveKey (ch src : Nat) : Nat := 1024 * ch + src

/-- The channel number of a wavefront from the dispatcher: it stands for no channel. -/
def sourceWave : Nat := 128

/-- Clear the phase that no selection reads. -/
def HSlot.clearInactive (k : HSlot) : HSlot := if k.phase then { k with e0 := none } else { k with e1 := none }

def Column.clearInactive (c : Column) : Column :=
  { c with handlers := c.handlers.foldl (fun m h => sput HSlot.empty m h.1 h.2.clearInactive) [] }

/-- The wavefronts the dispatcher sends: to the predecessor's columns that no column of it feeds (R100). -/
def State.sourceWaves (s : State) (pred : Nat) (tag : Nat) : List Wave :=
  ((s.regionCols pred).filter s.isSource).map (fun p => { col := p, src := 0x3FF, chan := sourceWave, ctx := tag, seq := 0 })

/-- The successor's columns that are free are loaded; those of the predecessor receive its entries in their inactive phase,
and its source columns their wavefronts. (Log 86: DEDUCED, unsafe) -/
def State.loadSplice (s : State) (l : Ld) (r : Region) (msgs : List Nat) : State :=
  let shared := l.cols.filter (fun p => (s.col p).region == r.predId)
  let fresh := l.cols.filter (fun p => !shared.contains p)
  let ents := shared.flatMap (fun p => (l.entries p).map (fun e => CfgMsg.entry p e))
  let waves := s.sourceWaves r.predId l.tag
  let s := l.cols.foldl (fun s p => s.loadData l p) (s.loadColumns l fresh)
  let s := shared.foldl (fun s p => s.modCol p Column.clearInactive) s
  { s with confs := s.confs ++ ents, wavefronts := s.wavefronts ++ waves }.enlist l r |>.openRegion l fresh msgs

/-- SPLICE_LAUNCH: queue q's packet with OP 2 is taken. -/
def evSpliceLaunch (q : Nat) (s : State) : Option State :=
  match s.take q (· == 2) with
  | none => none
  | some (s, pk) => match s.verdict q pk with
    | .done st c d => some (s.refuse q pk st c d)
    | .load m => match s.cachedAt (pkImage pk) m, s.predOf q (pkPred pk) with
      | some b, some pred =>
        let l := s.ldOf pk b m
        let msgs := s.packetMsgs pk b
        let r := { s.regionFor q pk l with pred := some pred.ctx, predId := pred.id, msgs := msgs }
        some (((s.touchCache (pkImage pk) (diesOf b m)).loadSplice l r msgs).popPacket q)
      | _, _ => none
    | _ => none

def execSpliceLaunch (q : Nat) (s : State) : Out := event (evSpliceLaunch q) s

/-- CONFIGURATION_MESSAGE: the n-th message writes a handler entry into the inactive phase of its slot. -/
def evConfiguration (n : Nat) (s : State) : Option State :=
  match s.confs[n]? with
  | none => none
  | some (.entry p e) =>
    let put (k : HSlot) : HSlot := if k.phase then { k with e0 := some e } else { k with e1 := some e }
    some ({ s with confs := dropAt s.confs n }.modCol p (fun c =>
      { c with handlers := sput HSlot.empty c.handlers e.hidx (put (sget HSlot.empty c.handlers e.hidx)) }))

def execConfigurationMessage (n : Nat) (s : State) : Out := event (evConfiguration n) s

/-- SPLICE_WAVEFRONT: the n-th wavefront arrives at its column; one that comes when the column no longer belongs to the
predecessor of its tag has nothing to tell it. -/
def evWavefront (n : Nat) (s : State) : Option State :=
  match s.wavefronts[n]? with
  | none => none
  | some w =>
    let s := { s with wavefronts := dropAt s.wavefronts n }
    let id := (s.col (p8 w.col)).region
    if s.regions.any (fun r => r.ctx == w.ctx && r.pred.isSome && r.predId == id) then
      some (s.modCol (p8 w.col) (fun c => { c with waves := c.waves ++ [(waveKey w.chan w.src, w.seq)], nextTag := w.ctx }))
    else some s

def execSpliceWavefront (n : Nat) (s : State) : Out := event (evWavefront n) s

/-- A message on its way to channel ch of column p. -/
def State.boundFor (s : State) (p ch : Nat) (f : Flight) : Bool :=
  decide (f.msg.ctx = (s.col p).ctx) && decide (f.msg.kind ≠ 3) &&
  if f.path.any (·.stage) then (s.sinksOf f.rt (s.stages.length + 1)).contains (p, ch)
  else decide (p8 f.msg.dest = p) && decide (f.msg.chan = ch)

/-- Every predecessor message of the channel has been taken and committed: a channel that one output feeds directly has let
go of the message with its wavefront's SEQ; another has nothing left on its way. (Log 86: DEDUCED, unsafe) -/
def State.passedAll (s : State) (p ch : Nat) : Bool :=
  let c := s.col p
  let direct := match s.feeder c.ctx p ch with
    | .col src _ => c.waves.any (fun w => w.1 == waveKey ch src && (c.chan ch).next == (w.2 + 1) % 2 ^ 16)
    | .stage _ _ => false
  (c.chan ch).items.isEmpty && (direct ||
    !(s.flights.any (s.boundFor p ch) || s.stages.any (fun t => t.2.waiting.any (fun w => s.boundFor p ch w.2))))

/-- Every wavefront has arrived, every predecessor message up to them has been taken by a firing that has committed, no firing
is in progress and the successor's entries have come (R101). (Log 86: DEDUCED, unsafe) -/
def State.maySwitch (s : State) (p : Nat) : Bool :=
  let c := s.col p
  let got (ch src : Nat) : Bool := c.waves.any (fun w => w.1 == waveKey ch src)
  decide (c.nextTag ≠ 0) && decide (c.nextTag ≠ c.ctx) &&
  (if s.isSource p then got sourceWave 0x3FF else (s.inputs p).all (fun i => i.2.all (fun src => got i.1 src))) &&
  c.chans.all (fun k => s.passedAll p k.1) &&
  [0, 1, 2, 3].all (fun b => (c.firing b).isNone) &&
  !s.confs.any (fun m => match m with
    | .entry q _ => q == p)

/-- The wavefronts of a column for each of its output routes, to each final consumer in its graph; they carry the SEQ of its
last message there (R100). -/
def State.waveInj (s : State) (p : Nat) : List Inj :=
  let c := s.col p
  ((s.routes.filter (fun r => !r.cast && r.src == p && r.region == c.region)).flatMap (fun r =>
    ((s.sinksOf r (s.stages.length + 1)).filter (fun x => (s.col x.1).region == c.region)).map (fun x =>
      let m : Msg := { dest := x.1, chan := x.2, kind := 0, len := 0, seq := ((c.out (outKey r.dest r.chan)).seq + 2 ^ 16 - 1) % 2 ^ 16,
                       ctx := c.nextTag, src := p, ferr := false, pay := [] }
      Inj.wave m))).eraseDups

/-- Every entry of the handler table flips (R55). -/
def Column.flipHandlers (c : Column) : Column :=
  { c with handlers := c.handlers.foldl (fun m h => sput HSlot.empty m h.1 { h.2 with phase := !h.2.phase }.clearInactive) [] }

/-- The outputs of the column's graph stay for what stands in the injection queue. -/
def Column.keepOuts (c : Column) : Column := { c with prevOuts := sput [] c.prevOuts c.ctx c.outs }

/-- Credit and opens on their way for the channels that column p leaves go with them, and its tag is retired there (R93). -/
def State.leaveTag (s : State) (p : Nat) : State :=
  { s with retired := tagKey (s.col p).ctx p :: s.retired, credits := s.credits.filter (fun k => p8 (k.key / 128) != p),
           opens := s.opens.filter (fun o => !(p8 (o.key / 128) == p && o.tag == (s.col p).ctx)) }

/-- The column takes the successor's configuration: table, tag, channels, outputs, joins, new handles; it takes its initial
messages and opens its inputs, and its wavefronts stand behind its committed messages. -/
def State.switchTo (s : State) (l : Ld) (r : Region) (p : Nat) (waves : List Inj) : State :=
  let pred := (s.regionOf r.predId).bind s.ldRegion
  let vs := (l.items 10 p).filter (fun v => !s.holdsHandle pred p v)
  let s := ((s.leaveTag p).modCol p (fun c => c.flipHandlers.keepOuts)).adopt l p vs
  let s := s.modCol p (fun c => { c with inj := c.inj ++ waves, waves := [], nextTag := 0, startAt := l.startOf r.loaded p })
  (((r.msgs.map l.init).filter (fun x => x.p == p)).foldl State.placeInit s).openAll p

/-- A column of the predecessor that is not in the successor retires at its switch. -/
def State.retireAtSwitch (s : State) (p : Nat) (waves : List Inj) : State :=
  let c := s.col p
  (s.releaseCols [p]).binMoves.modCol p (fun x => { x with inj := c.inj ++ waves, prevOuts := c.keepOuts.prevOuts })

/-- SPLICE_SWITCH of column p. -/
def evSpliceSwitch (p : Nat) (s : State) : Option State :=
  let c := s.col p
  if s.maySwitch p then
    match s.regions.find? (fun r => r.ctx == c.nextTag && r.predId == c.region) with
    | none => none
    | some r => (s.ldRegion r).map (fun l =>
        let waves := s.waveInj p
        if l.cols.contains p then s.switchTo l r p waves else s.retireAtSwitch p waves)
  else none

def execSpliceSwitch (c : Nat) (s : State) : Out := event (evSpliceSwitch c) s

end Sys2Proof.Machine
end

