-- ==== Sys2Proof/Machine/Fres.lean ====
section
/-!
DEFINITION. The driver's fault resolution: PTROOT (R436) and the actions of FRES (R446, R447).
-/
namespace Sys2Proof.Machine

/-! ## The register (Table 18-6) -/

/-- Log 102: DEDUCED, unsafe. -/
def fresCol (v : Word) : Nat := fieldW v 9 0
def fresHidx (v : Word) : Nat := fieldW v 15 10
def fresAction (v : Word) : Nat := fieldW v 18 16
def fresCtx (v : Word) : Nat := fieldW v 31 24

/-- The numbers of the remote stores that a column holds in its send buffers and its injection queue. -/
def Column.heldStores (c : Column) : List Nat :=
  (c.banks.flatMap (fun k => (k.2.firing.elim [] (·.sends)).filterMap (fun x => match x with
    | .store _ _ _ id => some id
    | .msg _ _ _ _ _ => none))) ++
  c.inj.filterMap (fun x => match x with
    | .store _ _ _ _ _ id => some id
    | _ => none)

/-- The accesses that have been translated and not yet been performed or refused: requests, and held stores. (Log 103:
DEDUCED, unsafe) -/
def State.translated (s : State) : List Nat :=
  (s.reqs.filter (fun r => r.st == .sent)).map (·.id) ++ s.cols.flatMap (fun c => c.2.heldStores)

/-- BUSY: an access translated before the last INVAL has not been performed or refused yet. (Log 103: DEDUCED, unsafe) -/
def State.fresBusy (s : State) : Bool := s.translated.any s.fresWait.contains

/-- A write of FRES with action `a`; one made while BUSY is discarded. -/
def fresWrite (a : Nat) (f : State → State) (v : Word) (s : State) : Out :=
  barEvent (fun s =>
    if fresAction v ≠ a then none
    else if s.fresBusy then some s
    else some (f { s with fres := keep v 0xFF07FFFF })) s

/-- The column of this package that a COL field names. (Log 102: DEDUCED, unsafe) -/
def State.namedCol (s : State) (v : Word) : Option Nat :=
  if fresCol v / 256 = s.proctor.chainPos then some (fresCol v % 256) else none

/-- An action on a column of a loaded region; elsewhere it has no effect. -/
def State.onLoaded (s : State) (v : Word) (f : Nat → State → State) : State :=
  match s.namedCol v with
  | some p => if (s.col p).region = 0 then s else f p s
  | none => s

/-! ## RETRY -/

def Column.modFirings (c : Column) (f : Firing → Firing) : Column := [0, 1, 2, 3].foldl (fun c b => c.modFiring b f) c

/-- Every parked access and command of a column goes on; an append that waits for the free list goes on waiting
(R328). (Log 97: DEDUCED, unsafe) -/
def Column.unpark (c : Column) : Column :=
  let cc (k : CCmd) : CCmd := { k with parked := none }
  let kv (k : KCmd) : KCmd := if k.parked.any (fun e => e.1 == 0x204) then k else { k with parked := none }
  let ss (k : SCmd) : SCmd := { k with parked := none }
  let go (f : Firing) : Firing :=
    match f.park with
    | some (.access _ _) => { f with park := none }
    | _ => f
  { c with copyq := c.copyq.map cc, csusp := c.csusp.map cc, crun := c.crun.map cc, kvq := c.kvq.map kv,
           ssq := c.ssq.map ss }.modFirings go

/-- Parked LSE commands whose descriptor names column p go on. (Log 97: DEDUCED, unsafe) -/
def State.lseUnpark (s : State) (p : Nat) : State :=
  let go (k : LCmd) : LCmd := if k.col = p then { k with parked := none } else k
  s.setLse (dieOf p) ((s.lseList (dieOf p)).map go)

/-- The driver's pushes after the one that has stopped, or with it, go on. (Log 102: DEDUCED, unsafe) -/
def State.resumePushes (s : State) (again : Bool) : State :=
  match s.fleStuck, s.flPushes with
  | some 0x3FF, l => { s with flPushes := [], flStuck := none }.servePushes (if again then l else l.tail)
  | _, _ => s

/-- RETRY: each parked access of COL is translated again when it goes on, and reported again if it faults. (Log 97:
DEDUCED, unsafe) -/
def State.fresRetry (s : State) (v : Word) : State :=
  let s := if fresCol v = 0x3FF then s.resumePushes true else s
  match s.namedCol v with
  | some p => (s.modCol p Column.unpark).lseUnpark p
  | none => s

def execRetry (v : Word) (s : State) : Out := fresWrite 0 (fun s => s.fresRetry v) v s

/-! ## FAIL -/

/-- The first fault on which the firing of band b or one of its commands is parked. -/
def Column.parkedFault (c : Column) (b : Nat) : Option (Nat × Word) :=
  let own := match (c.firing b).bind (·.park) with
    | some (.access k v) => [(k, v)]
    | _ => []
  let cs := (c.copyq ++ c.csusp ++ c.crun.toList).filterMap (fun k => if k.band = b ∧ k.tmpl = none then k.parked else none)
  let ks := c.kvq.filterMap (fun k => if k.band = b then k.parked else none)
  let ss := c.ssq.filterMap (fun k => if k.band = b then k.parked else none)
  (own ++ cs ++ ks ++ ss).head?

/-- The parked KV commands of band b's firing. -/
def Column.parkedKv (c : Column) (b : Nat) : List Nat :=
  (c.kvq.filter (fun k => decide (k.band = b) && k.parked.isSome)).map (·.id)

/-- The parked commands of band b's firing count as completed with the writes already made. (Log 99: DEDUCED, unsafe) -/
def Column.dropParked (c : Column) (b : Nat) : Column :=
  let gone := c.parkedKv b
  let stays (k : CCmd) : Bool := !(decide (k.band = b) && k.tmpl.isNone && k.parked.isSome)
  { c with copyq := c.copyq.filter stays, csusp := c.csusp.filter stays, crun := c.crun.filter stays,
           kvq := c.kvq.filter (fun k => !gone.contains k.id),
           ssq := c.ssq.filter (fun k => !(decide (k.band = b) && k.parked.isSome)) }

/-- Columns whose append no longer waits leave the order in which pops are served. -/
def State.syncPops (s : State) : State :=
  { s with flParked := s.flParked.filter (fun p => (s.col p).kvq.any (fun k => k.parked.any (fun e => e.1 == 0x204))) }

/-- The parked commands of band b are dropped; the pending KTB entry of an append goes, and the appends that wait on it resolve
(R323). (Log 99: DEDUCED, unsafe) -/
def State.endParked (s : State) (p b : Nat) : State :=
  (((s.col p).parkedKv b).foldl (fun s id => s.kvRemoved p id) (s.modCol p (fun c => c.dropParked b))).syncPops

/-- A firing that has not begun to end aborts. (Log 100: DEDUCED, unsafe) -/
def Column.abortBand (c : Column) (b cause path : Nat) (tval : Word) (hold : Bool) : Column :=
  match c.firing b with
  | none => c
  | some f => match f.phase with
    | .abort _ _ _ _ _ => c
    | _ => c.beginAbort b cause path tval f.pc false hold

/-- FAIL at band b: its firing aborts with the parked cause. (Log 98: DEDUCED, unsafe) -/
def State.failBand (s : State) (p b : Nat) : State :=
  match (s.col p).parkedFault b with
  | none => s
  | some e => (s.endParked p b).modCol p (fun c => c.abortBand b e.1 1 e.2 true)

/-- A parked template's copy goes, and the template is disarmed. (Log 98: DEDUCED, unsafe) -/
def State.failTemplates (s : State) (p : Nat) : State :=
  let c := s.col p
  let ks := (c.copyq ++ c.csusp ++ c.crun.toList).filter (fun k => k.parked.isSome)
  ks.foldl (fun (s : State) k => match k.tmpl with
    | some n => (s.modCol p (fun c => c.dropCopy k.id)).failTemplate p n
    | none => s) s

/-- Parked LSE commands of die d that `f` picks: each ends with status 2, or without a stamp when the stamp's write was
parked. -/
def State.lseFailIf (s : State) (d : Nat) (f : LCmd → Bool) : State :=
  let ids := ((s.lseList d).filter (fun k => f k && k.parked.isSome)).map (·.id)
  ids.foldl (fun s i => match findIx (fun k => decide (k.id = i)) (s.lseList d) with
    | none => s
    | some n => match (s.lseList d)[n]? with
      | none => s
      | some k => if k.switched || k.failed then s.lseEnd d n k else s.setLCmd d n { k with failed := true, parked := none }) s

/-- The parked LSE commands of column p. -/
def State.lseFail (s : State) (p : Nat) : State := s.lseFailIf (dieOf p) (fun k => decide (k.col = p))

/-- Log 98: DEDUCED, unsafe. -/
def State.fresFail (s : State) (v : Word) : State :=
  let s := if fresCol v = 0x3FF then s.resumePushes false else s
  match s.namedCol v with
  | some p => (([0, 1, 2, 3].foldl (fun s b => s.failBand p b) s).failTemplates p).lseFail p
  | none => s

def execFail (v : Word) (s : State) : Out := fresWrite 1 (fun s => s.fresFail v) v s

/-! ## REFIRE and RELEASE -/

/-- The band whose firing runs handler h. -/
def Column.bandOf (c : Column) (h : Nat) : Option Nat :=
  [0, 1, 2, 3].find? (fun b => (c.firing b).any (fun f => f.ent.hidx == h))

/-- REFIRE: the handler's firing aborts with 0x18E and no hold, SYS.TVAL the cause that parked it; a held one is
released. (Log 99: DEDUCED, unsafe) -/
def State.fresRefire (s : State) (v : Word) : State :=
  s.onLoaded v (fun p s =>
    let s := match (s.col p).bandOf (fresHidx v) with
      | none => s
      | some b =>
        let tval := ((s.col p).parkedFault b).elim 0 (fun e => w64 e.1)
        (s.endParked p b).modCol p (fun c => c.abortBand b 0x18E 1 tval false)
    s.modCol p (fun c => c.releaseHold (w64 (2 ^ fresHidx v))))

def execRefire (v : Word) (s : State) : Out := fresWrite 2 (fun s => s.fresRefire v) v s

def execRelease (v : Word) (s : State) : Out :=
  fresWrite 3 (fun s => s.onLoaded v (fun p s => s.modCol p (fun c => c.releaseHold (w64 (2 ^ fresHidx v))))) v s

/-! ## KILL (R447) -/

/-- The region a KILL names. -/
def State.killed (s : State) (v : Word) : Option Region :=
  match s.regions.filter (fun r => r.ctx == fresCtx v) with
  | [] => none
  | [r] => some r
  | l => (s.namedCol v).bind (fun p => l.find? (fun r => (s.col p).region == r.id))

/-- Step 2 at one column: every firing ends with 0x18D; parked commands count as completed. (Log 100: DEDUCED, unsafe) -/
def State.killFirings (s : State) (p : Nat) : State :=
  [0, 1, 2, 3].foldl (fun s b => (s.endParked p b).modCol p (fun c => c.abortBand b 0x18D 1 0 false)) s

/-- A swap, which becomes an LSE command when the LSE accepts it. -/
def COp.isSwap : COp → Bool
  | .lswap _ => true
  | .cpy _ _ _ _ _ => false

/-- Step 3 at one column: what it holds is discarded, its templates are disarmed, its captures closed; its tag is left.
Swaps that no LSE has accepted go too (step 4). -/
def Column.killState (c : Column) : Column :=
  let clear (k : Chan) : Chan := { k with items := [], gate := [] }
  let tmplStays (k : CCmd) : Bool := !(k.tmpl.isSome && k.parked.isSome) && !k.op.isSwap
  let c := { c with inj := [], handlers := [], templates := [], joins := [], ctx := 0,
                    copyq := c.copyq.filter tmplStays, csusp := c.csusp.filter tmplStays, crun := c.crun.filter tmplStays,
                    chans := c.chans.map (fun (k : Nat × Chan) => (k.1, clear k.2)) }
  c.modFirings (fun (f : Firing) => { f with sends := [] })

/-- A message in the mesh that the kill discards: one for a column of the region, or one that has still to pass a stage of
the region. (Log 85: DEDUCED, unsafe) -/
def State.killsFlight (s : State) (r : Region) (ps : List Nat) (f : Flight) : Bool :=
  ps.contains (p8 f.msg.dest) ||
  f.path.any (fun h => h.stage && (s.stageAt (stageKey f.rt.region h.col f.vc)).any (fun t => t.region == r.id))

/-- A message for a column of the killed region leaves the send buffers and the injection queue of a column. -/
def Column.dropBound (c : Column) (ps : List Nat) : Column :=
  let sendStays : Send → Bool := fun x => match x with
    | .msg dest _ _ _ _ => !ps.contains (p8 dest)
    | .store _ _ _ _ => true
  let injStays : Inj → Bool := fun x => match x with
    | .msg m _ => !ps.contains (p8 m.dest)
    | .marker m _ _ => !ps.contains (p8 m.dest)
    | .wave m => !ps.contains (p8 m.dest)
    | .store _ _ _ _ _ _ => true
  { c with inj := c.inj.filter injStays }.modFirings (fun f => { f with sends := f.sends.filter sendStays })

/-- The gate of LSE command `id` is released on every channel. -/
def Column.dropGate (c : Column) (id : Nat) : Column :=
  let free (k : Chan) : Chan := { k with gate := k.gate.filter (fun g => decide (g.1 ≠ id)) }
  { c with chans := c.chans.map (fun (k : Nat × Chan) => (k.1, free k.2)) }

/-- Step 4: LSE commands of the region's columns that have not started go, with their gates; the park of a started one ends
as FAIL ends it. (Log 101: DEDUCED, unsafe) -/
def State.killLse (s : State) (ps : List Nat) : State :=
  let out (k : LCmd) : Bool := !k.started && ps.contains k.owner
  [0, 1].foldl (fun s d =>
    let ids := ((s.lseList d).filter out).map (fun k => (k.id, k.col))
    let s := s.setLse d ((s.lseList d).filter (fun k => !out k))
    (ids.foldl (fun s i => s.modCol i.2 (fun c => c.dropGate i.1)) s).lseFailIf d (fun k => ps.contains k.owner))
    { s with lsePost := s.lsePost.filter (fun q => !ps.contains (lCol q.2 % 256)) }

/-- Log 101: DEDUCED, unsafe. -/
def State.killRegion (s : State) (r : Region) : State :=
  let ps := s.regionCols r.id
  let keys := ps.map (fun p => tagKey (s.col p).ctx p)
  let bound (w : Nat × Flight) : Bool := ps.contains (p8 w.2.msg.dest)
  let quiet (t : Stage) : Stage :=
    if t.region = r.id then { t with waiting := [], stopped := false, inflight := 0 }
    else { t with waiting := t.waiting.filter (fun w => !bound w) }
  let s := { s with flights := s.flights.filter (fun f => !s.killsFlight r ps f),
                    wavefronts := s.wavefronts.filter (fun w => !ps.contains (p8 w.col)),
                    confs := s.confs.filter (fun m => match m with
                      | .entry q _ => !ps.contains q),
                    cols := s.cols.foldl (fun (m : List (Nat × Column)) (c : Nat × Column) => sput Column.reset m c.1 (c.2.dropBound ps)) [] }
  let s := ps.foldl (fun s p => (s.killFirings p).modCol p Column.killState) s
  let die (x : Region) : Region := if x.id = r.id then { x with dying := true } else x
  let s := { s with stages := s.stages.map (fun (t : Nat × Stage) => (t.1, quiet t.2)), retired := s.retired ++ keys,
                    regions := s.regions.map die,
                    bells := r.bells.foldl (fun m g =>
                      sput Bell.unbound m g { sget Bell.unbound m g with flags := [] }) s.bells }
  (s.killLse ps).syncPops

/-- KILL: steps 1 to 4 of R447; GRAPH_END makes step 5 when the region's firings and running commands have ended. (Log
101: DEDUCED, unsafe) -/
def execKill (v : Word) (s : State) : Out :=
  fresWrite 4 (fun s => match s.killed v with
    | some r => s.killRegion r
    | none => s) v s

/-! ## INVAL and PTROOT -/

/-- Every translation cache of the package is cleared; accesses translated before are waited for. (Log 103: DEDUCED,
unsafe) -/
def State.inval (s : State) : State :=
  { s with cols := s.cols.foldl (fun m c => sput Column.reset m c.1 { c.2 with tlb := [] }) [], dieTlb := [],
           fresWait := s.translated }

def execInval (v : Word) (s : State) : Out := fresWrite 5 State.inval v s

/-- PTROOT keeps EN and BASE, and its write performs INVAL. -/
def execPtrootWrite (v : Word) (s : State) : Out :=
  barEvent (fun s => some { s.inval with ptroot := v.toNat % 2 + v.toNat / 2 ^ 20 % 2 ^ 27 * 2 ^ 20 }) s

/-! ## Step mode (R444, R445) -/

/-- Step mode of handler h is set or ended; a stopped firing of h goes on. -/
def Column.stepMode (c : Column) (h : Nat) (on : Bool) : Column :=
  let go (f : Firing) : Firing :=
    if f.ent.hidx = h then { f with stepMode := on, park := if f.park = some .stopped then none else f.park } else f
  { c with stepping := setBit64 c.stepping h on }.modFirings go

def execStep (v : Word) (s : State) : Out :=
  fresWrite 6 (fun s => s.onLoaded v (fun p s => s.modCol p (fun c => c.stepMode (fresHidx v) true))) v s

def execRun (v : Word) (s : State) : Out :=
  fresWrite 7 (fun s => s.onLoaded v (fun p s => s.modCol p (fun c => c.stepMode (fresHidx v) false))) v s

end Sys2Proof.Machine
end

