-- ==== Sys2Proof/Machine/Proctor.lean ====
section
/-!
DEFINITION. The Proctor: power states (R448, R449, R456 to R458), signed images (R451, R452, R455), the mailbox (R453, R466),
attestation (R454), telemetry (R459, R460), margins (R464), row sparing (R462, R463), retraining (R443, R465), error
injection (R467), the journal (R468), Roll Call (R469 to R471) and the external links (R432).
-/
namespace Sys2Proof.Machine

/-! ## Flash slots and signed images (R451, R452) -/

/-- Bytes of a slot of a kind: four slots and a journal of 65,536 entries of 64 bytes share the 32 MiB of the flash partition
(R1, R468). (Log 107: DESIGN CHOICE, unsafe) -/
def slotBytes (kind : Nat) : Nat :=
  let room := (2 ^ 25 - 65536 * 64) / 2
  let fw := min (Config.slotSize 1) room
  if kind = 1 then fw else min (Config.slotSize 2) (room - fw)

def slotKey (kind : Nat) (slot : Bool) : Nat := 2 * (kind - 1) + b2n slot
def Proctor.slotOf (p : Proctor) (kind : Nat) : Bool := sget false p.slot kind
def Proctor.activeOf (p : Proctor) (kind : Nat) : Bool := sget false p.active kind
def Proctor.image (p : Proctor) (kind : Nat) (slot : Bool) : List Byte := (sget [] p.flash (slotKey kind slot)).take (slotBytes kind)

/-- Bytes `n` to `n + k - 1` of a list. -/
def cut (l : List Byte) (n k : Nat) : List Byte := (l.drop n).take k

def imageBody (b : List Byte) : List Byte := cut b 256 (leNat (cut b 8 4))
/-- The security version, of the seven bits that Tables 19-2 and 19-3 give it. (Log 149: DESIGN CHOICE, unsafe) -/
def imageSvn (b : List Byte) : Nat := leNat (cut b 5 1) % 128

/-- The image of a slot, header and body. -/
def imageWhole (b : List Byte) : List Byte := b.take 256 ++ imageBody b

/-- Its header, key, signature, kind and length are accepted. -/
def Proctor.signed (p : Proctor) (kind : Nat) (b : List Byte) : Bool :=
  leNat (cut b 0 4) == 0x4D475354 && leNat (cut b 4 1) == kind &&
  decide (256 + leNat (cut b 8 4) ≤ min b.length (slotBytes kind)) &&
  p.keyHash.contains (sha384 (cut b 16 97)) &&
  verifySig (cut b 16 97) (sha384 (b.take 128 ++ imageBody b)) (cut b 128 96)

/-- The ROM's verdict: 0 accepted, 2 signature rejected, 3 below the floor. (Log 106: DEDUCED, unsafe) -/
def Proctor.verify (p : Proctor) (kind : Nat) (b : List Byte) : Nat :=
  if !p.signed kind b then 2 else if imageSvn b < p.fuseSvn then 3 else 0

/-- The ROM tries the active slot of a kind and then the other; each rejection journals 0x383 with the slot number. -/
def State.tryKind (s : State) (kind : Nat) : Option Bool × State :=
  let a := s.proctor.activeOf kind
  if s.proctor.verify kind (s.proctor.image kind a) = 0 then (some a, s)
  else
    let s := s.journal 0 0x383 0x3FF false (w64 (b2n a))
    if s.proctor.verify kind (s.proctor.image kind (!a)) = 0 then (some (!a), s)
    else (none, s.journal 0 0x383 0x3FF false (w64 (b2n (!a))))

/-- Step 1 of R449: firmware, then configuration; without firmware the package enters recovery. (Log 106: DEDUCED,
unsafe) -/
def State.rom (s : State) : State :=
  let f := s.tryKind 1
  let c := f.2.tryKind 2
  let set (k : Nat) (o : Option Bool) (p : Proctor) : Proctor :=
    { p with slot := sput false p.slot k (o.getD (p.activeOf k)) }
  c.2.modProctor (fun p =>
    let p := set 2 c.1 (set 1 f.1 p)
    let img := p.image 1 (p.slotOf 1)
    match f.1 with
    | none => { p with begun := true, power := .recovery }
    | some _ => { p with begun := true, power := .boot, cfgRun := c.1.isSome, svn := imageSvn img,
                         fwver := Config.releaseOf (imageWhole img), chainLen := 0, chainPos := 0 })

/-! ## Reset, power-up, power loss (R448, R449) -/

/-- What the Proctor keeps without power. (Log 109: DESIGN CHOICE, unsafe) -/
def Proctor.cold (p : Proctor) : Proctor :=
  { Proctor.reset with
    cfg := p.cfg, step := p.step, serial := p.serial, keyHash := p.keyHash, fuseSvn := p.fuseSvn, active := p.active,
    flash := p.flash, boots := p.boots, journalRing := p.journalRing, journalProt := p.journalProt, jseq := p.jseq,
    rowSpared := p.rowSpared, replans := p.replans, moved := p.moved ++ p.pend.filter (fun c => !p.moved.contains c), usec := p.usec,
    counters := p.counters.filter (fun c => decide (c.1 = 8 ∨ c.1 = 9)) }

/-- Everything volatile is lost; the host's memory and what it has received are not the package's. (Log 109: DESIGN
CHOICE, unsafe) -/
def State.cold (s : State) : State :=
  { State.reset with proctor := s.proctor.cold, hostMem := s.hostMem, hostReads := s.hostReads, irqs := s.irqs,
                     agenda := s.agenda, nextId := s.nextId, nextFree := s.nextFree }

/-- RESET_RELEASE: the Proctor begins the power-up sequence with its ROM. -/
def execResetRelease (s : State) : Out :=
  event (fun s => some ((s.cold.modProctor (fun p => { p with boots := (p.boots + 1) % 2 ^ 32 })).rom)) s

/-- POWER_LOSS: the package is off; a slot being staged is left unverifiable. -/
def execPowerLoss (s : State) : Out :=
  event (fun s => some ((s.cold).modProctor (fun p =>
    { p with power := .off, flash := s.proctor.staging.foldl (fun m k => sput [] m k []) p.flash }))) s

/-! ## Margins (R464, R465) -/

/-- A column of the 2.8 GHz bin. (Log 84: DEDUCED, unsafe) -/
def State.slow (s : State) (c : Nat) : Bool := Config.factorySlow c || s.proctor.moved.contains c

/-- The re-plan at one column: drift is noted, the target offset is what is needed, within ±40 mV of the factory table; a
3.2 GHz column that needs more than +32 mV is to change bin, at +40 mV. (Log 111: DEDUCED, unsafe; 126: DEDUCED,
unsafe) -/
def State.planAt (s : State) (k c : Nat) : State :=
  let need := Config.marginNeed k c
  let move := !s.slow c && !s.proctor.pend.contains c && decide (64 < need)
  let t := if s.proctor.pend.contains c || move then 80 else clampI (-80) 80 need
  let s := s.modProctor (fun p => { p with drift := sput 0 p.drift c (Config.marginDrift k c).toNat, target := sput 0 p.target c t,
                                           pend := if move then p.pend ++ [c] else p.pend })
  if move then s.reportBoth 0x384 c (w64 c) else s

/-- A margin re-plan visits the columns in order. (Log 111: DEDUCED, unsafe) -/
def State.replan (s : State) : State :=
  let k := s.proctor.replans + 1
  let s := s.modProctor (fun p => { p with replans := k, plan := k, planAt := p.usec })
  ((List.range 256).foldl (fun s c => s.planAt k c) s).binMoves

/-- VOLTAGE_OFFSET_STEP: column c's offset moves one 0.5 mV step, at most once per 10 µs. (Log 111: DEDUCED, unsafe) -/
def evVoltageStep (c : Nat) (s : State) : Option State :=
  let p := s.proctor
  let o := sget 0 p.offset c
  let t := sget 0 p.target c
  if p.power = .run ∧ c < 256 ∧ o ≠ t ∧ sget 0 p.stepAt c ≤ p.usec then
    some (s.modProctor (fun p => { p with offset := sput 0 p.offset c (if o < t then o + 1 else o - 1),
                                          stepAt := sput 0 p.stepAt c (p.usec + 10) })).binMoves
  else none

def execVoltageOffsetStep (c : Nat) (s : State) : Out := event (evVoltageStep c) s

/-- REPLAN_TIMER: 72 powered hours have passed since the last re-plan. -/
def execReplanTimer (s : State) : Out :=
  event (fun s => if s.proctor.power = .run ∧ s.proctor.planAt + 259200000000 ≤ s.proctor.usec then some s.replan else none) s

/-- BOOT_COMPLETE: steps 2 to 7 of R449 end, with the re-plan at power-up; launch queues accept doorbells. -/
def execBootComplete (s : State) : Out :=
  event (fun s => if s.proctor.power = .boot ∧ s.proctor.begun = true then
      some ((s.modProctor (fun p => { p with power := .run })).replan)
    else none) s

/-! ## The mailbox (R453) -/

/-- What a command makes: a state and its result, or a refusal status. -/
inductive Mb where
  | ok (s : State) (out : List Byte)
  | no (status : Nat)
  deriving DecidableEq, Repr

def mbLen (v : Word) : Nat := fieldW v 31 16
def mbArg (v : Word) : Nat := fieldW v 62 32

/-- Bytes of MBBUF. -/
def State.mbBytes (s : State) (n : Nat) : List Byte := (List.range n).map (fun i => sget 0 s.proctor.mbbuf i)

/-- A command completes: MBCMD keeps its fields with GO cleared, MBSTAT takes status and length, MBBUF the result. A refusal
reports 0x382. (Log 105: DESIGN CHOICE, unsafe) -/
def State.mbDone (s : State) (v : Word) (status : Nat) (out : List Byte) : State :=
  let put (m : List Host.Cell) : List Host.Cell :=
    (zipW (fun (i : Nat) (b : Byte) => (i, b)) (List.range out.length) out).foldl (fun m x => sput 0 m x.1 x.2) m
  let s := s.modProctor (fun p => { p with mbcmd := keep v 0x7FFFFFFFFFFF00FF, mbstat := w64 (status + 2 ^ 8 * out.length),
                                           mbbuf := put p.mbbuf })
  if status = 0 then s else s.reportOnly 0x382 0x3FF v

/-- A write of MBCMD with GO = 1 starts a command; the Proctor accepts it, clears GO, and is busy until it is carried out
(R453). (Log 105: DESIGN CHOICE, unsafe) -/
def State.mbStart (s : State) (v : Word) : Option State :=
  if v.getLsbD 63 = false ∨ s.proctor.power = .off then none
  else if s.proctor.mbstat.getLsbD 63 then some s
  else some (s.modProctor (fun p => { p with mbcmd := keep v 0x7FFFFFFFFFFF00FF, mbstat := w64 (2 ^ 63), mbrun := some v }))

/-- A write of MBCMD with GO = 1 and operation `op`; `ok` names the states that admit it, others refuse it with status
4. (Log 104: DEDUCED, unsafe; 105: DESIGN CHOICE, unsafe) -/
def mailbox (op : Nat) (ok : Power → Bool) (f : State → Mb) (v : Word) (s : State) : Out :=
  event (fun s =>
    if fieldW v 7 0 ≠ op ∨ v.getLsbD 63 = false ∨ s.proctor.power = .off then none
    else if s.proctor.mbstat.getLsbD 63 then some s
    else if !ok s.proctor.power then some (s.mbDone v 4 [])
    else match f s with
      | .ok t out => some (t.mbDone v 0 out)
      | .no st => some (s.mbDone v st [])) s

def anyState (_ : Power) : Bool := true
/-- Log 104: DEDUCED, unsafe. -/
def notRecovery (p : Power) : Bool := decide (p ≠ .recovery)
def inRun (p : Power) : Bool := decide (p = .run)

/-- Assigned operations (Tables 19-5 and 20-4). -/
def opKnown (n : Nat) : Bool := (decide (1 ≤ n) && decide (n ≤ 7)) || (decide (0x10 ≤ n) && decide (n ≤ 0x16))

/-- UNKNOWN_COMMAND: an unassigned operation completes with status 1. -/
def execUnknownCommand (v : Word) (s : State) : Out :=
  if opKnown (fieldW v 7 0) then s.idle else mailbox (fieldW v 7 0) anyState (fun _ => .no 1) v s

/-- IDENT: the two certificates. -/
def execIdent (v : Word) (s : State) : Out :=
  mailbox 1 anyState (fun s => .ok s ((Config.certificates 0 ++ Config.certificates 1).take 4096)) v s

/-! ## Identity and attestation (R450, R454) -/

/-- PKGID. -/
def Proctor.pkgid (p : Proctor) : Nat :=
  0x8256 + 2 ^ 16 * p.cfg + 2 ^ 24 * p.step + 2 ^ 32 * p.chainPos + 2 ^ 34 * p.chainLen

/-- PENDING: UPDACTIVATE has set the other firmware slot active for the next reset. (Log 108: DEDUCED, unsafe) -/
def Proctor.pending (p : Proctor) : Bool := p.activated.contains 1

/-- Exactly `n` bytes of a byte string. -/
def fit (n : Nat) (l : List Byte) : List Byte := (l ++ List.replicate n 0).take n

/-- The report over a nonce; without a running configuration image its hash is open. -/
def State.attestReport (s : State) (nonce : List Byte) : List Byte :=
  let p := s.proctor
  let cfg := if p.cfgRun then sha384 (imageWhole (p.image 2 (p.slotOf 2))) else freeBytes s.nextFree 48
  fit 48 nonce ++ leBytes 8 p.serial.toNat ++ leBytes 8 p.pkgid ++ fit 48 (sha384 (imageWhole (p.image 1 (p.slotOf 1)))) ++
    fit 48 cfg ++ leBytes 4 (p.svn + 2 ^ 8 * p.fuseSvn + 2 ^ 16 * b2n (p.slotOf 1) + 2 ^ 24 * b2n p.pending) ++
    leBytes 4 p.boots ++ List.replicate 88 0

def execAttest (v : Word) (s : State) : Out :=
  mailbox 2 notRecovery (fun s =>
    let r := s.attestReport (s.mbBytes 48)
    .ok { s with nextFree := s.nextFree + 48 } (r ++ fit 96 (Config.signAttest (sha384 r)))) v s

/-! ## Updates (R455) -/

/-- A slot's contents with bytes written at an offset; what lies before and was never written is open. (Log 107:
DESIGN CHOICE, unsafe) -/
def slotWrite (free : Nat) (l : List Byte) (off : Nat) (bs : List Byte) : List Byte :=
  let l := l ++ freeBytes free (off - l.length)
  l.take off ++ bs ++ l.drop (off + bs.length)

/-- UPDSTAGE: bytes are written into the slot that is not running; the first write at offset 0 since the reset, or since the
slot was activated, erases it. (Log 107: DESIGN CHOICE, unsafe) -/
def State.stage (s : State) (v : Word) : Mb :=
  let off := fieldW v 55 32
  let kind := fieldW v 57 56
  let n := mbLen v
  if (kind ≠ 1 ∧ kind ≠ 2) ∨ 4096 < n ∨ slotBytes kind < off + n then .no 5
  else
    let k := slotKey kind (!s.proctor.slotOf kind)
    let first := decide (off = 0) && !s.proctor.erased.contains k
    let old := if first then [] else sget [] s.proctor.flash k
    let new := slotWrite s.nextFree old off (s.mbBytes n)
    let t := s.modProctor (fun p =>
      { p with flash := sput [] p.flash k new, staging := k :: p.staging.filter (fun x => decide (x ≠ k)),
               erased := if first then k :: p.erased else p.erased })
    .ok { t with nextFree := s.nextFree + off } []

def execUpdstage (v : Word) (s : State) : Out := mailbox 3 anyState (fun s => s.stage v) v s

/-- UPDACTIVATE: the inactive slot is verified and set active for the next reset. (Log 106: DEDUCED, unsafe) -/
def State.activate (s : State) (v : Word) : Mb :=
  let kind := fieldW v 33 32
  if kind ≠ 1 ∧ kind ≠ 2 then .no 5
  else
    let a := !s.proctor.slotOf kind
    match s.proctor.verify kind (s.proctor.image kind a) with
    | 0 =>
      let others (l : List Nat) : List Nat := l.filter (fun x => decide (x ≠ slotKey kind a))
      .ok (s.modProctor (fun p => { p with active := sput false p.active kind a, staging := others p.staging,
                                           erased := others p.erased, activated := kind :: p.activated })) []
    | st => .no st

def execUpdactivate (v : Word) (s : State) : Out := mailbox 4 anyState (fun s => s.activate v) v s

/-- SVNCOMMIT: FUSESVN rises to the running firmware's. -/
def execSvncommit (v : Word) (s : State) : Out :=
  mailbox 5 notRecovery (fun s => .ok (s.modProctor (fun p => { p with fuseSvn := max p.fuseSvn p.svn })) []) v s

/-! ## Doze and wake (R456 to R458) -/

/-- What refuses a DOZE: a loaded region, a packet read and not completed, an outstanding LSE command. -/
def State.dozeBusy (s : State) : Bool :=
  !s.regions.isEmpty || s.lq.any (fun q => q.2.pkt.isSome) || s.lse.any (fun l => !l.2.isEmpty) || !s.lsePost.isEmpty

/-- A column in doze keeps its stack slices and its handle table. (Log 116: DEDUCED, unsafe) -/
def Column.doze (c : Column) : Column :=
  { Column.reset with stack := c.stack, stkFlip := c.stkFlip, htab := c.htab,
                      retained := (c.htab.filter (fun h => h.2.valid)).map (·.1) }

/-- The compute dies lose their power; GDDR 7 and the registers of the host interface are kept. -/
def State.gate (s : State) : State :=
  { s with cols := s.cols.foldl (fun m c => sput Column.reset m c.1 c.2.doze) [], flights := [], routes := [], stages := [],
           linkRot := [], reqs := [], credits := [], opens := [], confs := [], wavefronts := [], groups := [], bells := [],
           cache := [], dieTlb := [], retired := [], cur := 0, redirect := none }

/-- Log 116: DEDUCED, unsafe. -/
def execDoze (v : Word) (s : State) : Out :=
  mailbox 6 inRun (fun s =>
    if s.dozeBusy then .no 4 else .ok (s.gate.modProctor (fun p => { p with power := .doze, wake := false })) []) v s

/-- WAKE, written in doze, starts a wake. -/
def execWake (v : Word) (s : State) : Out :=
  mailbox 7 (fun p => decide (p = .doze)) (fun s => .ok (s.modProctor (fun p => { p with wake := true })) []) v s

/-- WAKE_COMPLETE: the package runs, vector 10 is raised, and packets rung meanwhile are read. -/
def execWakeComplete (s : State) : Out :=
  event (fun s => if s.proctor.power = .doze ∧ s.proctor.wake = true then
      some (((s.modProctor (fun p => { p with power := .run, wake := false })).vector 10).pull)
    else none) s

/-! ## Telemetry (R459, R460) -/

/-- A sample of a sensor against one threshold: key 2n for the warning, 2n + 1 for the critical one. A crossing sets the
alarm, reports and journals 0x385; the sensor must fall by `back` before it can cross again. (Log 113: DEDUCED,
unsafe) -/
def State.cross (s : State) (n key alarm : Nat) (val thr back : Int) : State :=
  if s.proctor.above.contains key then
    if val ≤ thr - back then s.modProctor (fun p => { p with above := p.above.filter (fun k => decide (k ≠ key)) }) else s
  else if thr ≤ val then
    (s.modProctor (fun p => { p with above := key :: p.above, alarm := p.alarm ||| alarm })).reportBoth 0x385 0x3FF (w64 n)
  else s

/-- The register a sample gives; a droop sensor's EVENTS counts, saturating, and a voltage below DROOPV is an event.
(Log 113: DEDUCED, unsafe) -/
def State.sampleWord (s : State) (n v : Nat) : Nat :=
  if n < 64 then v % 2 ^ 16
  else if n < 96 then
    let ev := if v % 2 ^ 16 < fieldW s.proctor.thresh 48 37 then max 1 (fieldN v 31 16) else 0
    v % 2 ^ 16 + 2 ^ 16 * min 0xFFFF (fieldN (sget 0 s.proctor.sensors n) 31 16 + ev)
  else if n < 112 then v % 2 ^ 32
  else v % 2 ^ 16

/-- Every buffered journal entry goes to flash. -/
def Proctor.flushAll (p : Proctor) : Nat → Proctor
  | 0 => p
  | n + 1 => p.flush.flushAll n

/-- What a sample brings about. At 115 °C the package shuts down. (Log 113: DEDUCED, unsafe) -/
def State.sampled (s : State) (n v : Nat) : State :=
  let t := s.proctor.thresh
  if n < 64 then
    let x := sx 16 v
    let s := (s.cross n (2 * n) 1 x (fieldW t 11 0) 32).cross n (2 * n + 1) 2 x (fieldW t 23 12) 32
    if 1840 ≤ x then
      ((s.journal 0 0x385 0x3FF false (w64 n)).modProctor (fun p => p.flushAll p.jbuf.length)).cold.modProctor
        (fun p => { p with power := .off })
    else s
  else if n = 112 then
    let x : Int := (v % 2 ^ 16 : Nat)
    (s.cross n (2 * n) 4 x (fieldW t 36 24) 100).cross n (2 * n + 1) 8 x 7000 100
  else s

/-- SENSOR_SAMPLE: sensor n's register takes the sample `v`. -/
def execSensorSample (n v : Nat) (s : State) : Out :=
  event (fun s =>
    if 113 ≤ n ∨ s.proctor.power = .off then none
    else
      let s := s.modProctor (fun p => { p with sensors := sput 0 p.sensors n (s.sampleWord n v) })
      some (s.sampled n v).pull) s

/-! ## Management commands (R466) -/

def execReplan (v : Word) (s : State) : Out := mailbox 0x10 inRun (fun s => .ok s.replan []) v s

/-- RCARM arms Roll Call with a match and lets the last capture go. (Log 114: DESIGN CHOICE, unsafe) -/
def execRcarm (v : Word) (s : State) : Out :=
  mailbox 0x11 inRun (fun s =>
    .ok (s.modProctor (fun p => { p with armed := some (leNat (s.mbBytes 8) % 2 ^ 43), capture := none })) []) v s

/-- RCTRIG: source 0. -/
def execRctrig (v : Word) (s : State) : Out := mailbox 0x12 inRun (fun s => .ok (s.rollCall 0 0 0) []) v s

/-- A trigger of the host or the pin; in doze it is refused with 0x382. -/
def State.trigger (s : State) (source : Nat) (word : Word) : State :=
  if s.proctor.power = .doze then s.reportOnly 0x382 0x3FF word
  else if s.proctor.power = .run then s.rollCall source 0 0 else s

def execRchostWrite (v : Word) (s : State) : Out :=
  barEvent (fun s => some (if v.getLsbD 0 then s.trigger 1 v else s)) s

/-- ROLL_CALL_PIN; the command word of a refused one is open. -/
def execRollCallPin (s : State) : Out :=
  event (fun s => some { s.trigger 2 (Config.freeValue s.nextFree) with nextFree := s.nextFree + 1 }) s

/-- Commands that hold an entry of a queue whose head its engine carries out: the head counts while it is held back at its
start (log 52). -/
def State.queueDepth (s : State) (p : Nat) (l : List (Nat × Nat)) : Nat :=
  match l with
  | [] => 0
  | k :: t => t.length + b2n (s.cmdHeld p k.1 k.2)

/-- The values a capture of column p holds, in the order of R471. -/
def State.captured (s : State) (p : Nat) : List Nat :=
  let c := s.col p
  [c.cycle] ++
  [0, 1, 2, 3].flatMap (fun b => [(c.fireWord b).toNat, (c.firing b).elim 0 (·.pc)]) ++
  [c.hold.toNat, c.numst, c.ftzcnt, c.earlyp] ++ (List.range 128).map (fun n => (c.chan n).used) ++
  [c.mq.length] ++ [0, 1, 2, 3].map (fun b => c.copyWaiting b) ++
  [s.queueDepth p (c.kvq.map (fun k => (k.band, k.id))), s.queueDepth p (c.ssq.map (fun k => (k.band, k.id))),
   (s.lseList (dieOf p)).length] ++
  [0, 1, 2, 3].map (fun b => (c.firing b).elim 0 (·.sends.length)) ++ [c.inj.length] ++
  (List.range 8).map (fun t => (c.tile t).poison)

/-- RCREAD: 1 KiB of the block's capture, as it was latched. Blocks 0 to 255 are the columns; the contents of other blocks are
open, and the same at each read. (Log 115: DESIGN CHOICE, safe) -/
def State.readCapture (s : State) (n : Nat) : Mb :=
  match s.proctor.capture with
  | none => .no 4
  | some l =>
    if n < 256 then
      .ok s (fit 1024 (Config.captureLayout (({ State.reset with cols := l.cols, reqs := l.reqs, lse := l.lse } : State).captured n)))
    else .ok s (fit 1024 (Config.captureOther l.other n))

def execRcread (v : Word) (s : State) : Out := mailbox 0x13 inRun (fun s => s.readCapture (mbArg v)) v s

/-! ## Error injection (R467) -/

/-- Slice address of 8-byte word w of tile t of a handle, if the tile and the word lie in it. -/
def Column.injectAt (c : Column) (h : Handle) (t w : Nat) : Option Nat :=
  if h.valid = false ∨ c.ntiles h ≤ t then none
  else
    let off := match h.form with
      | 1 => 64 * t
      | 2 => leNat (c.stackRead (h.at_ + 4 + 4 * t) 4)
      | _ => tileSize h.fmt * t
    if 8 * w < (c.tileSpan h off).2 ∧ off + 8 * w < h.len * 4096 then some (h.at_ + off + 8 * w) else none

/-- INJECT: one or two stored bits of a word flip. Bits 63 to 59 of its argument are not looked at. (Log 114: DESIGN
CHOICE, unsafe) -/
def State.inject (s : State) (a : Nat) : Mb :=
  let p := fieldN a 9 0
  let b1 := fieldN a 50 44
  let b2 := fieldN a 57 51
  let c := s.col (p % 256)
  if p / 256 ≠ s.proctor.chainPos ∨ 72 ≤ b1 ∨ (bitN a 58 = true ∧ 72 ≤ b2) then .no 5
  else match c.injectAt (c.handle (fieldN a 17 10)) (fieldN a 34 18) (fieldN a 43 35) with
    | none => .no 5
    | some o =>
      let m := 2 ^ b1 ^^^ (if bitN a 58 then 2 ^ b2 else 0)
      .ok (s.setCol (p % 256) { c with stkFlip := sput 0 c.stkFlip (o / 8) (sget 0 c.stkFlip (o / 8) ^^^ m) }) []

def execInject (v : Word) (s : State) : Out := mailbox 0x14 inRun (fun s => s.inject (leNat (s.mbBytes 8))) v s

/-! ## The journal (R468) -/

/-- Table 20-5. -/
def JEntry.bytes (e : JEntry) : List Byte :=
  leBytes 64 (e.seq % 2 ^ 32 + 2 ^ 32 * e.type + 2 ^ 34 * e.cause + 2 ^ 44 * e.col + 2 ^ 54 * b2n e.exh +
    2 ^ 64 * (e.time % 2 ^ 64) + 2 ^ 128 * e.val.toNat)

/-- Entries in sequence order. -/
def insEntry (e : JEntry) : List JEntry → List JEntry
  | [] => [e]
  | f :: t => if e.seq ≤ f.seq then e :: f :: t else f :: insEntry e t

/-- JREAD: up to 64 entries from the number on, those still buffered among them. It is accepted wherever the Proctor runs,
recovery among them (R466). (Log 104: DEDUCED, unsafe) -/
def execJread (v : Word) (s : State) : Out :=
  mailbox 0x15 anyState (fun s =>
    let l := (s.proctor.journalProt ++ s.proctor.journalRing ++ s.proctor.jbuf).filter (fun e => decide (mbArg v ≤ e.seq))
    .ok s (((l.foldl (fun m e => insEntry e m) []).take 64).flatMap JEntry.bytes)) v s

/-- JCLEAR: protected entries below the number are released. -/
def execJclear (v : Word) (s : State) : Out :=
  mailbox 0x16 inRun (fun s =>
    .ok (s.modProctor (fun p => { p with journalProt := p.journalProt.filter (fun e => decide (mbArg v ≤ e.seq)) })) []) v s

/-! ## Row sparing (R462, R463) -/

/-- Row r of column p is copied into a spare through the correction logic: corrected words are written as read, double
errors with the check pattern. -/
def Column.spareRow (c : Column) (r : Nat) : Column :=
  (List.range 256).foldl (fun (k : Column) i =>
    let a := 2048 * r + 8 * i
    match c.stackClass a with
    | 0 => k
    | 2 => k.stackPoison a 8
    | _ => k.stackWrite a (leBytes 8 (c.stackWord a))) c

/-- One sparing: the slice's next spare is taken, or none is left; either is journalled, with open data. -/
def State.spare (s : State) (key : Nat) : State :=
  let p := key / 2 ^ 15
  let n := sget 0 s.proctor.rowSpared (key / 4096)
  let s := s.modProctor (fun q => { q with spareDue := q.spareDue.filter (fun k => decide (k ≠ key)),
                                           rowErr := sput 0 q.rowErr key 0 })
  let s := { s with nextFree := s.nextFree + 1 }.journal 2 0 p (decide (16 ≤ n)) (Config.freeValue s.nextFree)
  if 16 ≤ n then s
  else ((s.modProctor (fun q => { q with rowSpared := sput 0 q.rowSpared (key / 4096) (n + 1) })).modCol p
    (fun c => c.spareRow (key % 2 ^ 15))).count (8 + dieOf p)

/-! ## Retraining (R443, R465) -/

/-- A column waits at a BELLW, MWAIT or PBWAIT. -/
def State.waits (s : State) (p : Nat) : Bool :=
  let c := s.col p
  (s.waitingWord p).isSome ||
  match c.running, c.firing c.band with
  | some _, some f => match decodeNat (s.mem32 p f.pc) with
    | .ok (_, .bellw _ l) => (s.bell (dieOf p) l.toNat).flags.contains p
    | _ => false
  | _, _ => false

/-- A SAG read or an LSE write into the column's slice is outstanding. -/
def State.streams (s : State) (p : Nat) : Bool :=
  ((s.col p).mrun.toList ++ (s.col p).mq).any (fun m => match m.op with
    | .mma _ _ => true
    | _ => false) ||
  (s.lseList (dieOf p)).any (fun k => decide (k.col = p) && k.started && !k.switched)

/-- A column of the die defers its retraining. -/
def State.deferring (s : State) (d : Nat) : Bool := s.cols.any (fun c => dieOf c.1 == d && s.waits c.1 && s.streams c.1)

/-- Drift of a column of the die above RTLIM since the die's last retraining. -/
def State.drifted (s : State) (d : Nat) : Bool :=
  s.proctor.drift.any (fun x => dieOf x.1 == d && decide (sget 0 s.proctor.rtBase x.1 + fieldW s.proctor.thresh 56 49 < x.2))

def Proctor.dueAt (p : Proctor) (d : Nat) : Option Nat := sget none p.rtDue d

/-- RETRAINING_DUE: 32,000,000 cycles after the last one, or on drift. (Log 112: DEDUCED, unsafe) -/
def evRetrainingDue (d : Nat) (s : State) : Option State :=
  let p := s.proctor
  if p.power = .run ∧ d < 2 ∧ p.dueAt d = none ∧ p.rtPause.contains d = false ∧
      (sget 0 p.rtLast d + 32000000 ≤ s.pktCycle ∨ s.drifted d = true) then
    some (s.modProctor (fun p => { p with rtDue := sput none p.rtDue d (some s.pktCycle),
                                          rtDefer := if s.deferring d then d :: p.rtDefer else p.rtDefer }))
  else none

def execRetrainingDue (d : Nat) (s : State) : Out := event (evRetrainingDue d) s

/-- The pause begins: stream reads are cancelled, to be made again; one row of the die is spared. Its length, at most 4,800
cycles, is open. A deferred one journals 0x306 with the cycles deferred, a forced one 0x307 with those of the pause.
(Log 112: DEDUCED, unsafe) -/
def State.retrain (s : State) (d due : Nat) (late forced : Bool) : State :=
  let n := (Config.freeValue s.nextFree).toNat % 4801
  let s := { s with nextFree := s.nextFree + 1 }.modProctor (fun p =>
    { p with rtDue := sput none p.rtDue d none, rtPause := d :: p.rtPause, rtEnd := sput 0 p.rtEnd d (s.pktCycle + n),
             rtDefer := p.rtDefer.filter (fun x => decide (x ≠ d)) })
  let s := if late then s.journal 0 0x306 0x3FF false (w64 (d + 2 ^ 32 * (s.pktCycle - due))) else s
  let s := if forced then s.journal 0 0x307 0x3FF false (w64 (d + 2 ^ 32 * n)) else s
  match s.proctor.spareDue.find? (fun k => dieOf (k / 2 ^ 15) == d) with
  | some k => s.spare k
  | none => s

/-- RETRAINING_START: due, and nothing defers it. -/
def evRetrainingStart (d : Nat) (s : State) : Option State :=
  match s.proctor.dueAt d with
  | none => none
  | some t =>
    if s.proctor.power ≠ .run ∨ s.deferring d = true then none else some (s.retrain d t (s.proctor.rtDefer.contains d) false)

def execRetrainingStart (d : Nat) (s : State) : Out := event (evRetrainingStart d) s

/-- RETRAINING_FORCED: deferral has lasted 640,000 cycles. -/
def evRetrainingForced (d : Nat) (s : State) : Option State :=
  match s.proctor.dueAt d with
  | none => none
  | some t =>
    if s.proctor.power = .run ∧ s.deferring d = true ∧ t + 640000 ≤ s.pktCycle then some (s.retrain d t true true) else none

def execRetrainingForced (d : Nat) (s : State) : Out := event (evRetrainingForced d) s

/-- RETRAINING_END: the ports resume when the pause's length has passed; the die's next retraining counts from here, and its
drift from what it is now. -/
def evRetrainingEnd (d : Nat) (s : State) : Option State :=
  if s.proctor.power == .run && s.proctor.rtPause.contains d && decide (sget 0 s.proctor.rtEnd d ≤ s.pktCycle) then
    some (s.modProctor (fun p => { p with rtPause := p.rtPause.filter (fun x => decide (x ≠ d)), rtEnd := sput 0 p.rtEnd d 0,
                                          rtLast := sput 0 p.rtLast d s.pktCycle,
                                          rtBase := (List.range 256).foldl (fun m c =>
                                            if dieOf c = d then sput 0 m c (sget 0 p.drift c) else m) p.rtBase }))
  else none

/-- A retraining that is deferred in this cycle. -/
def State.markDeferral (s : State) (d : Nat) : State :=
  if (s.proctor.dueAt d).isSome && s.deferring d && !s.proctor.rtDefer.contains d then
    s.modProctor (fun p => { p with rtDefer := d :: p.rtDefer })
  else s

/-- What the stack interfaces do in a cycle: a pause ends, a deferral is noted, and a retraining that is due starts in the first
cycle in which nothing defers it, or is forced (R443). (Log 112: DEDUCED, unsafe) -/
def State.ports (s : State) : State :=
  if s.proctor.power ≠ .run ∨ (s.proctor.rtDue.isEmpty ∧ s.proctor.rtPause.isEmpty) then s
  else [0, 1].foldl (fun (s : State) d =>
    let s := ((evRetrainingEnd d s).getD s).markDeferral d
    ((evRetrainingStart d s) <|> (evRetrainingForced d s)).getD s) s

def execRetrainingEnd (d : Nat) (s : State) : Out := event (evRetrainingEnd d) s

/-! ## External links (R432) -/

/-- EXTERNAL_LINK_FAILURE: the link of an external port to the package at chain position `far` fails. A package that is not
chained has no circuit through it. (Log 19: DESIGN CHOICE, unsafe; 117: DEDUCED, unsafe) -/
def execExternalLinkFailure (port far : Nat) (s : State) : Out :=
  event (fun s => if port < 2 ∧ far < 4 then some (s.reportOnly 0x28A 0x3FF (w64 (port + 2 ^ 8 * far))) else none) s

end Sys2Proof.Machine
end

