-- ==== Sys2Proof/Machine/Bar.lean ====
section
/-!
DEFINITION. The host port (R407 to R409): BAR2, AtomicOp requests, and the registers of BAR0 that have no step of their own:
what a write does (R10, R11) and what a read gives.
-/
namespace Sys2Proof.Machine

/-! ## BAR2 (R408) -/

/-- Device physical address of the window's first byte: WINBASE rounded down to the BAR2 size. -/
def State.window (s : State) : Nat := s.dwin / 2 ^ s.bar2 * 2 ^ s.bar2

/-- The bytes a host read gets: all ones beyond the capacity. What lies in an uncorrectable granule, or in the state backing
region, is open. (Log 96: DEDUCED, unsafe; 118: DESIGN CHOICE, unsafe) -/
def State.bar2Bytes (s : State) (a n : Nat) : List Byte :=
  let inUse := s.unitLocs 0
  (List.range n).map (fun i =>
    let l := Loc.gd (a + i)
    if s.capacity ≤ a + i then 0xFF
    else if s.errAt l 1 == 2 || inUse.any (fun u => l.within u.2) then (Config.freeValue (s.nextFree + i)).setWidth 8
    else s.rd l)

/-- A granule of the window is accessed ahead of the rest of a BAR2 access (R408): read, or written with `data`; a write that no
other follows is an access of its own. (Log 119: DEDUCED, unsafe) -/
def State.bar2Early (s : State) (g : Nat) (data : Option (List Byte)) : Option State :=
  if 8 * g < s.window ∨ s.window + 2 ^ s.bar2 < 8 * g + 8 then none
  else match data with
  | none => some { s with barGot := (g, s.bar2Bytes (8 * g) 8) :: s.barGot, nextFree := s.nextFree + 8 }
  | some bs =>
    let bs := bs.take (min 8 (s.capacity - 8 * g))
    some { (s.wrBytes (.gd (8 * g)) bs).corrupt 0 ((List.range bs.length).map (fun i => Loc.gd (8 * g + i))) with
           barPut := (g, bs) :: s.barPut }

/-- Bytes of a read, those of granules read before among them. -/
def overGot (got : List (Nat × List Byte)) (a : Nat) (bs : List Byte) : List Byte :=
  zipW (fun i b => ((got.find? (fun x => x.1 == (a + i) / 8)).bind (fun x => x.2[(a + i) % 8]?)).getD b) (List.range bs.length) bs

/-- Log 119: DEDUCED, unsafe. -/
def evBar2Read (off n : Nat) (s : State) : Option State :=
  if 2 ^ s.bar2 < off + n then none
  else
    let a := s.window + off
    let bs := overGot s.barGot a (s.bar2Bytes a n)
    let s := s.countRead ((List.range n).map (fun i => Loc.gd (a + i)))
    some { s with hostReads := s.hostReads ++ [HostCpl.data bs], nextFree := s.nextFree + n, barGot := [] }

def execBar2Read (off len : Nat) (s : State) : Out := barEvent (evBar2Read off len) s

/-- A host write: bytes beyond the capacity are discarded. (Log 119: DEDUCED, unsafe) -/
def evBar2Write (off : Nat) (data : List Byte) (s : State) : Option State :=
  if 2 ^ s.bar2 < off + data.length then none
  else
    let a := s.window + off
    let bs := data.take (s.capacity - a)
    let made (i : Nat) : Bool := (s.barPut.find? (fun x => x.1 == (a + i) / 8)).elim false (fun x =>
      decide (a ≤ 8 * x.1) && x.2 == cut bs (8 * x.1 - a) 8)
    let ws := (zipW (fun i b => ({ loc := .gd (a + i), val := b, mask := 0xFF } : ByteW)) (List.range bs.length) bs).filter
      (fun w => match w.loc with
        | .gd x => !made (x - a)
        | _ => true)
    let whole := (s.wrBytes (.gd a) bs).corrupt 0 ((List.range bs.length).map (fun i => Loc.gd (a + i)))
    some (if s.barPut.isEmpty then whole else { (s.wrAll ws).corrupt 0 (ws.map (·.loc)) with barPut := [] })

/-- BAR2 takes another of its sizes (R407). (Log 118: DESIGN CHOICE, unsafe) -/
def State.resize (s : State) (n : Nat) : Option State := if 28 ≤ n ∧ n ≤ 37 then some { s with bar2 := n } else none

def execBar2Write (off : Nat) (data : List (BitVec 8)) (s : State) : Out := barEvent (evBar2Write off data) s

/-- HOST_ATOMICOP_REQUEST (R407): completed with Unsupported Request. -/
def execHostAtomicopRequest (s : State) : Out :=
  barEvent (fun s => some { s with hostReads := s.hostReads ++ [HostCpl.unsupported] }) s

/-! ## Registers written (R10, R11) -/

/-- The 8 bytes of a doubleword in a byte table. -/
def putDw (m : List Host.Cell) (o : Nat) (v : Word) : List Host.Cell :=
  (List.range 8).foldl (fun m i => sput 0 m (o + i) (BitVec.ofNat 8 (v.toNat / 2 ^ (8 * i)))) m

def getDw (m : List Host.Cell) (o : Nat) : Word := w64 (leNat ((List.range 8).map (fun i => sget 0 m (o + i))))

/-- 64 bits of a number replaced. -/
def putQ (n i : Nat) (v : Word) : Nat := n / 2 ^ (64 * (i + 1)) * 2 ^ (64 * (i + 1)) + v.toNat * 2 ^ (64 * i) + n % 2 ^ (64 * i)

/-- Identity block and mailbox: writable in every state but off. MBCMD with GO set starts a command and is no such write. -/
def State.proctorWrite (s : State) (off : Nat) (v : Word) : Option State :=
  if off = 0x10 then some (s.modProctor (fun p => { p with autowake := v.getLsbD 19 }))
  else if off = 0x1000000 then
    if v.getLsbD 63 then none
    else if s.proctor.mbstat.getLsbD 63 then some s
    else some (s.modProctor (fun p => { p with mbcmd := keep v 0x7FFFFFFFFFFF00FF }))
  else if 0x1001000 ≤ off ∧ off < 0x1002000 then
    some (s.modProctor (fun p => { p with mbbuf := putDw p.mbbuf (off - 0x1001000) v }))
  else none

/-- Telemetry thresholds, alarms and counters. (Log 10: DESIGN CHOICE, unsafe) -/
def State.fleetWrite (s : State) (off : Nat) (v : Word) : Option State :=
  if off = 0x1002388 then some (s.modProctor (fun p => { p with thresh := keep v 0x01FFFFFFFFFFFFFF }))
  else if off = 0x1002390 then some (s.modProctor (fun p => { p with alarm := (w64 p.alarm &&& ~~~ v).toNat }))
  else if 0x1002400 ≤ off ∧ off ≤ 0x1002450 then
    let n := (off - 0x1002400) / 8
    if n = 8 ∨ n = 9 then none
    else some (s.modProctor (fun p => { p with counters := sput 0 p.counters n (v.toNat % 2 ^ 32) }))
  else none

/-- URGMAP register at an offset. -/
def urgIx (off : Nat) : Option Nat :=
  if off = 0x3000 then some 0 else if off = 0x3008 then some 1 else if off = 0x3018 then some 2
  else if off = 0x3020 then some 3 else none

/-- The dispatcher's registers, the MSI-X table, the launch-queue SRAM and the posting windows. (Log 96: DEDUCED,
unsafe; 122: DEDUCED, unsafe) -/
def State.hostWrite (s : State) (off : Nat) (v : Word) : Option State :=
  if 0x800 ≤ off ∧ off < 0x900 then some ({ s with msixTable := putDw s.msixTable (off - 0x800) v }.unmask)
  else if 0x1000 ≤ off ∧ off < 0x1800 ∧ off % 32 = 0 then
    let q := (off - 0x1000) / 32
    some (s.setLq q ((s.lqOf q).setBase v.toNat))
  else if 0x2000 ≤ off ∧ off ≤ 0x2100 ∧ off % 32 = 0 then
    let c := (off - 0x2000) / 32
    some (s.setRq c ((s.rqOf c).setBase v.toNat))
  else if off = 0x2120 then some { s with fqLost := (w64 s.fqLost &&& ~~~ v).toNat }
  else if off = 0x3010 then some { s with dwin := v.toNat % 2 ^ 47 }
  else if 0x4100 ≤ off ∧ off < 0x4140 then
    if off % 32 = 24 then none else some (s.winWrite ((off - 0x4100) / 32) (off % 32 / 8) v)
  else if 0x100000 ≤ off ∧ off < 0x180000 then some ({ s with lqSram := putDw s.lqSram (off - 0x100000) v }.markRings (off - 0x100000) 8)
  else match urgIx off with
    | some i => some { s with urgmap := putQ s.urgmap i v }
    | none => s.fleetWrite off v

/-- GENERIC_REGISTER_WRITE: a doubleword of BAR0 without a step of its own. Read-only and unlisted offsets discard it; in
recovery only the identity block and the mailbox are present. -/
def evGeneric (off : Nat) (v : Word) (s : State) : Option State :=
  if off % 8 ≠ 0 ∨ s.proctor.power = .off then none
  else match s.proctorWrite off v with
    | some t => some t
    | none => if s.proctor.power = .recovery then some s else some ((s.hostWrite off v).getD s)

def execGenericRegisterWrite (off : Nat) (v : Word) (s : State) : Out := event (evGeneric off v) s

/-! ## Registers read -/

/-- WAIT of LQHEAD: the packet read waits on a dependence or on columns; also while its completion queue is at its limit. -/
def State.lqWaits (s : State) (q : Nat) : Bool :=
  match s.packetOf q with
  | none => false
  | some pk => s.verdictOf q pk == .wait

def powerCode : Power → Nat
  | .off => 0
  | .boot => 1
  | .run => 2
  | .doze => 3
  | .recovery => 4

/-- PKGSTAT (Table 19-2). -/
def Proctor.stat (p : Proctor) : Word :=
  w64 (powerCode p.power + 2 ^ 3 * b2n (p.slotOf 1) + 2 ^ 4 * p.svn + 2 ^ 11 * p.fuseSvn + 2 ^ 18 * b2n p.pending +
    2 ^ 19 * b2n p.autowake)

def LQueue.regs (k : LQueue) (waits : Bool) : Nat → Word
  | 0 => w64 k.base
  | 8 => w64 (k.log2n + 2 ^ 4 * b2n k.loc + 2 ^ 5 * b2n k.en + 2 ^ 6 * k.pri)
  | 16 => w64 k.tail
  | _ => w64 (k.head + 2 ^ 16 * b2n k.err + 2 ^ 17 * b2n waits)

def RQueue.regs (k : RQueue) : Nat → Word
  | 0 => w64 k.base
  | 8 => w64 (k.log2n + 2 ^ 4 * b2n k.loc + 2 ^ 5 * b2n k.en + 2 ^ 6 * b2n k.ie)
  | 16 => w64 (k.tail + 2 ^ 16 * b2n k.phase)
  | _ => w64 k.head

/-- MARGIN of a column (Table 20-3). -/
def State.margin (s : State) (c : Nat) : Word :=
  let p := s.proctor
  let off := um 8 (sx 8 (Config.factoryOffset c).toNat + sget 0 p.offset c)
  let slack := if p.plan = 0 then (Config.factorySlack c).toNat else (Config.marginSlack p.plan c).toNat
  w64 (off + 2 ^ 8 * b2n (s.slow c) + 2 ^ 9 * b2n (p.pend.contains c) + 2 ^ 16 * sget 0 p.drift c + 2 ^ 32 * slack)

/-- A register of the mailbox and management block. -/
def State.proctorRead (s : State) (o : Nat) : Word :=
  let p := s.proctor
  if o = 0 then p.mbcmd
  else if o = 8 then p.mbstat
  else if 0x1000 ≤ o ∧ o < 0x2000 then getDw p.mbbuf (o - 0x1000)
  else if 0x2000 ≤ o ∧ o < 0x2388 then
    w64 (sget 0 p.sensors ((o - 0x2000) / 8))
  else if o = 0x2388 then p.thresh
  else if o = 0x2390 then w64 p.alarm
  else if 0x2400 ≤ o ∧ o ≤ 0x2450 then w64 (sget 0 p.counters ((o - 0x2400) / 8))
  else if 0x3000 ≤ o ∧ o < 0x3800 then s.margin ((o - 0x3000) / 8)
  else 0

/-- The doubleword a host read of BAR0 gets (Table 17-1); unlisted offsets read zero. (Log 96: DEDUCED, unsafe) -/
def State.bar0 (s : State) (off : Nat) : Word :=
  let p := s.proctor
  if off = 0 then w64 p.pkgid
  else if off = 8 then p.serial
  else if off = 0x10 then p.stat
  else if off = 0x18 then p.fwver
  else if 0x1000000 ≤ off ∧ off < 0x1002000 then s.proctorRead (off - 0x1000000)
  else if p.power = .recovery then 0
  else if 0x1000000 ≤ off then s.proctorRead (off - 0x1000000)
  else if 0x800 ≤ off ∧ off < 0x900 then getDw s.msixTable (off - 0x800)
  else if off = 0xC00 then w64 (s.pba.foldl (fun n v => n ||| 2 ^ v) 0)
  else if 0x1000 ≤ off ∧ off < 0x1800 then
    let q := (off - 0x1000) / 32
    (s.lqOf q).regs (s.lqWaits q) (off % 32)
  else if 0x2000 ≤ off ∧ off < 0x2120 then (s.rqOf ((off - 0x2000) / 32)).regs (off % 32)
  else if off = 0x2120 then w64 s.fqLost
  else match urgIx off with
    | some i => w64 (s.urgmap / 2 ^ (64 * i))
    | none =>
      if off = 0x3010 then w64 s.dwin
      else if off = 0x3028 then w64 s.ccinv
      else if off = 0x3030 then w64 s.ptroot
      else if off = 0x3038 then s.fres + (if s.fresBusy then w64 (2 ^ 63) else 0)
      else if off = 0x4000 then w64 s.kvbase
      else if off = 0x4008 then w64 s.kvcnt
      else if off = 0x4010 then w64 s.flbase
      else if off = 0x4018 then w64 s.ssbase
      else if off = 0x4020 then w64 s.sslen
      else if 0x4100 ≤ off ∧ off < 0x4140 then w64 (sget 0 s.lseWin ((off - 0x4100) / 8))
      else if 0x100000 ≤ off ∧ off < 0x180000 then getDw s.lqSram (off - 0x100000)
      else 0

end Sys2Proof.Machine
end

