-- ==== Sys2Proof/Machine/Scalar.lean ====
section
/-!
DEFINITION. Scalar integer instructions, long immediates, scalar FP32 arithmetic and conversion (R255 to R263), with the
latencies of Table 16-1.
-/
namespace Sys2Proof.Machine

/-! ## Integer ALU (R255): arithmetic modulo 2^64 -/

/-- Shift count b[5:0]. -/
def sh6 (b : Word) : Nat := b.toNat % 64

/-- Leading zeros, 0 to 64. -/
def clz64 (a : Word) : Word := w64 (64 - bitLen a.toNat)

def execAdd (d a b : BitVec 5) (s : State) : Out := opXXX 1 (fun x y => x + y) d a b s
def execSub (d a b : BitVec 5) (s : State) : Out := opXXX 1 (fun x y => x - y) d a b s
def execAnd (d a b : BitVec 5) (s : State) : Out := opXXX 1 (fun x y => x &&& y) d a b s
def execOr (d a b : BitVec 5) (s : State) : Out := opXXX 1 (fun x y => x ||| y) d a b s
def execXor (d a b : BitVec 5) (s : State) : Out := opXXX 1 (fun x y => x ^^^ y) d a b s
def execShl (d a b : BitVec 5) (s : State) : Out := opXXX 1 (fun x y => x <<< sh6 y) d a b s
def execShr (d a b : BitVec 5) (s : State) : Out := opXXX 1 (fun x y => x >>> sh6 y) d a b s
def execSar (d a b : BitVec 5) (s : State) : Out := opXXX 1 (fun x y => x.sshiftRight (sh6 y)) d a b s
def execSlt (d a b : BitVec 5) (s : State) : Out := opXXX 1 (fun x y => if x.slt y then 1 else 0) d a b s
def execSltu (d a b : BitVec 5) (s : State) : Out := opXXX 1 (fun x y => if x.ult y then 1 else 0) d a b s
def execMin (d a b : BitVec 5) (s : State) : Out := opXXX 1 (fun x y => if y.slt x then y else x) d a b s
def execMax (d a b : BitVec 5) (s : State) : Out := opXXX 1 (fun x y => if x.slt y then y else x) d a b s
def execMinu (d a b : BitVec 5) (s : State) : Out := opXXX 1 (fun x y => if y.ult x then y else x) d a b s
def execMaxu (d a b : BitVec 5) (s : State) : Out := opXXX 1 (fun x y => if x.ult y then y else x) d a b s
def execClz (d a : BitVec 5) (s : State) : Out := opXX 1 clz64 d a s
def execPopc (d a : BitVec 5) (s : State) : Out := opXX 1 (fun x => w64 (popcount 64 x.toNat)) d a s
def execAndn (d a b : BitVec 5) (s : State) : Out := opXXX 1 (fun x y => x &&& ~~~ y) d a b s

/-! ## Immediates (R256): b is imm12 sign-extended -/

def execAddi (d a : BitVec 5) (i : BitVec 12) (s : State) : Out := opXX 1 (fun x => x + i.signExtend 64) d a s
def execAndi (d a : BitVec 5) (i : BitVec 12) (s : State) : Out := opXX 1 (fun x => x &&& i.signExtend 64) d a s
def execOri (d a : BitVec 5) (i : BitVec 12) (s : State) : Out := opXX 1 (fun x => x ||| i.signExtend 64) d a s
def execXori (d a : BitVec 5) (i : BitVec 12) (s : State) : Out := opXX 1 (fun x => x ^^^ i.signExtend 64) d a s
def execShli (d a : BitVec 5) (i : BitVec 6) (s : State) : Out := opXX 1 (fun x => x <<< i.toNat) d a s
def execShri (d a : BitVec 5) (i : BitVec 6) (s : State) : Out := opXX 1 (fun x => x >>> i.toNat) d a s
def execSari (d a : BitVec 5) (i : BitVec 6) (s : State) : Out := opXX 1 (fun x => x.sshiftRight i.toNat) d a s
def execSlti (d a : BitVec 5) (i : BitVec 12) (s : State) : Out :=
  opXX 1 (fun x => if x.slt (i.signExtend 64) then 1 else 0) d a s
def execSltiu (d a : BitVec 5) (i : BitVec 12) (s : State) : Out :=
  opXX 1 (fun x => if x.ult (i.signExtend 64) then 1 else 0) d a s

/-! ## MUL and DIV families (R257, Table 9-3) -/

def execMul (d a b : BitVec 5) (s : State) : Out := opXXX 3 (fun x y => x * y) d a b s
def execMulhs (d a b : BitVec 5) (s : State) : Out := opXXX 3 (fun x y => i64 (x.toInt * y.toInt / 2 ^ 64)) d a b s
def execMulhu (d a b : BitVec 5) (s : State) : Out := opXXX 3 (fun x y => w64 (x.toNat * y.toNat / 2 ^ 64)) d a b s
def execMulhm (d a b : BitVec 5) (s : State) : Out := opXXX 3 (fun x y => i64 (x.toInt * y.toNat / 2 ^ 64)) d a b s
def execMul32s (d a b : BitVec 5) (s : State) : Out :=
  opXXX 3 (fun x y => i64 (sx 32 x.toNat * sx 32 y.toNat)) d a b s

/-- Signed quotient: saturated toward the dividend's sign for a zero divisor and for the one overflow. -/
def quotS (x y : Word) : Word :=
  if y = 0 then (if 0 < x.toInt then w64 (2 ^ 63 - 1) else if x.toInt < 0 then w64 (2 ^ 63) else 0)
  else i64 (satS 64 (x.toInt.tdiv y.toInt))

def quotU (x y : Word) : Word := if y = 0 then (if x = 0 then 0 else BitVec.allOnes 64) else w64 (x.toNat / y.toNat)

def remS (x y : Word) : Word := if y = 0 then 0 else i64 (x.toInt.tmod y.toInt)

def remU (x y : Word) : Word := if y = 0 then 0 else w64 (x.toNat % y.toNat)

/-- The divider accepts one instruction in 20 cycles (Table 16-1). -/
def divForm (f : Word → Word → Word) (d a b : BitVec 5) (s : State) : Out :=
  s.need [.x a.toNat, .x b.toNat, .x d.toNat] (s.onUnit unitDiv 20 (opXXX 20 f d a b))

def execDivs (d a b : BitVec 5) (s : State) : Out := divForm quotS d a b s
def execDivu (d a b : BitVec 5) (s : State) : Out := divForm quotU d a b s
def execRems (d a b : BitVec 5) (s : State) : Out := divForm remS d a b s
def execRemu (d a b : BitVec 5) (s : State) : Out := divForm remU d a b s

/-! ## Long immediates (R258) -/

def execLi (d : BitVec 5) (i : BitVec 17) (s : State) : Out := opX 1 (i.signExtend 64) d s
def execLis (d : BitVec 5) (i : BitVec 17) (s : State) : Out :=
  opXX 1 (fun x => (x <<< 17) ||| i.setWidth 64) d d s

/-! ## FP32 arithmetic (R259, R260), FMA (R261), FCMP (R262) -/

/-- A result that is never rounded and sets no flag (R260): its FP32 code, canonical for a NaN. -/
def quiet (x : Val) : Val × Nat := (x, 0)

def execFadd (d a b : BitVec 5) (m : BitVec 3) (s : State) : Out := opFFF 4 m.toNat (Val.add m.toNat) d a b s
def execFsub (d a b : BitVec 5) (m : BitVec 3) (s : State) : Out :=
  opFFF 4 m.toNat (fun x y => Val.add m.toNat x y.neg) d a b s
def execFmul (d a b : BitVec 5) (m : BitVec 3) (s : State) : Out := opFFF 4 m.toNat Val.mul d a b s
def execFdiv (d a b : BitVec 5) (m : BitVec 3) (s : State) : Out :=
  s.need [.x a.toNat, .x b.toNat, .x d.toNat] (s.onUnit unitFdiv 12 (opFFF 12 m.toNat Val.div d a b))
def execFsqrt (d a : BitVec 5) (m : BitVec 3) (s : State) : Out :=
  s.need [.x a.toNat, .x d.toNat] (s.onUnit unitFdiv 12 (opFF 12 m.toNat Val.sqrt d a))
def execFmin (d a b : BitVec 5) (s : State) : Out := opFFF 4 0 (fun x y => quiet (x.min2 y)) d a b s
def execFmax (d a b : BitVec 5) (s : State) : Out := opFFF 4 0 (fun x y => quiet (x.max2 y)) d a b s
def execFabs (d a : BitVec 5) (s : State) : Out := opFF 4 0 (fun x => quiet x.abs) d a s
def execFneg (d a : BitVec 5) (s : State) : Out := opFF 4 0 (fun x => quiet x.neg) d a s

def execFmadd (d a b : BitVec 5) (m : BitVec 3) (s : State) : Out := opFMA false false m d a b s
def execFmsub (d a b : BitVec 5) (m : BitVec 3) (s : State) : Out := opFMA false true m d a b s
def execFnmadd (d a b : BitVec 5) (m : BitVec 3) (s : State) : Out := opFMA true false m d a b s
def execFnmsub (d a b : BitVec 5) (m : BitVec 3) (s : State) : Out := opFMA true true m d a b s

def execFcmp (d a b : BitVec 5) (c : BitVec 3) (s : State) : Out :=
  opXXX 2 (fun x y => if (fpX x).holds c.toNat (fpX y) then 1 else 0) d a b s

/-! ## FCVT (R263, Table 9-5) -/

/-- Integer to FP32, with .sat. -/
def fcvtInt (f : Word → Int) (m : BitVec 3) (sat : BitVec 1) (d a : BitVec 5) (s : State) : Out :=
  s.need [.x a.toNat, .x d.toNat]
    (s.fres_ d (FP32.cvt (.ofInt (f (s.X a))) m.toNat (sat == 1#1)) 0 3).issued

/-- FP32 to an integer type with range lo to hi. -/
def fcvtToInt (lo hi : Int) (m : BitVec 3) (d a : BitVec 5) (s : State) : Out :=
  s.need [.x a.toNat, .x d.toNat]
    (let r := roundInt (fpX (s.X a)) lo hi m.toNat
     (s.result (.x d.toNat) ((i64 r.val).setWidth 512) 3 r.fl).issued)

def execFcvtF32L (d a : BitVec 5) (m : BitVec 3) (sat : BitVec 1) (s : State) : Out :=
  fcvtInt (fun x => x.toInt) m sat d a s
def execFcvtF32Lu (d a : BitVec 5) (m : BitVec 3) (sat : BitVec 1) (s : State) : Out :=
  fcvtInt (fun x => x.toNat) m sat d a s
def execFcvtLF32 (d a : BitVec 5) (m : BitVec 3) (s : State) : Out := fcvtToInt (-(2 ^ 63)) (2 ^ 63 - 1) m d a s
def execFcvtLuF32 (d a : BitVec 5) (m : BitVec 3) (s : State) : Out := fcvtToInt 0 (2 ^ 64 - 1) m d a s
def execFcvtWF32 (d a : BitVec 5) (m : BitVec 3) (s : State) : Out := fcvtToInt (-(2 ^ 31)) (2 ^ 31 - 1) m d a s
def execFcvtBf16F32 (d a : BitVec 5) (m : BitVec 3) (sat : BitVec 1) (s : State) : Out :=
  s.need [.x a.toNat, .x d.toNat]
    (s.fres_ d (BF16.cvt (fpX (s.X a)) m.toNat (sat == 1#1)) 0 3).issued
def execFcvtF32Bf16 (d a : BitVec 5) (s : State) : Out :=
  s.need [.x a.toNat, .x d.toNat]
    (s.fres_ d (FP32.round (BF16.decode ((s.X a).toNat % 2 ^ 16)) 0) 0 3).issued

end Sys2Proof.Machine
end

