-- ==== Sys2Proof/Machine/StateStore.lean ====
section
/-!
DEFINITION. The state store (R28, R330 to R332): state blocks, their snapshots and the 4 KiB units both occupy. The parts
of a fork or drop on different blocks are events of their own.
-/
namespace Sys2Proof.Machine

/-! ## Blocks and units -/

def State.sblock (s : State) (sid layer : Nat) : Option SBlock :=
  s.blocks.find? (fun b => decide (b.sid = sid) && decide (b.layer = layer))

/-- Replace the block of the same key, or add it. -/
def State.putBlock (s : State) (b : SBlock) : State :=
  if (s.sblock b.sid b.layer).isSome then
    { s with blocks := s.blocks.map (fun x => if x.sid = b.sid ∧ x.layer = b.layer then b else x) }
  else { s with blocks := s.blocks ++ [b] }

/-- How many states and snapshots share a unit; the lowest free unit of the backing region. -/
def State.unitUses (s : State) (u : Nat) : Nat := ((s.blocks.flatMap SBlock.units).filter (fun x => decide (x = u))).length
def State.freeUnit (s : State) : Option Nat :=
  (List.range (min (s.sslen / 4096) ((s.blocks.flatMap SBlock.units).length + 1))).find? (fun u => s.unitUses u == 0)

def State.unitBytes (s : State) (u : Nat) : List Byte := sget (List.replicate 4096 0) s.units u
def State.putUnit (s : State) (u : Nat) (bs : List Byte) : State :=
  { s with units := sput (List.replicate 4096 0) s.units u bs }

/-- A snapshot of the state at POS: it replaces one at the same position; a ring of 8 drops its oldest. -/
def SBlock.snapshot (b : SBlock) : SBlock :=
  let keep := b.snaps.filter (fun x => decide (x.1 ≠ b.pos))
  let l := keep ++ [(b.pos, b.unit)]
  { b with snaps := l.drop (l.length - 8) }

/-- The newest snapshot at or below position p. -/
def SBlock.newest (b : SBlock) (p : Nat) : Option (Nat × Nat) := (b.snaps.filter (fun x => decide (x.1 ≤ p))).getLast?

/-- A token: position, status, count. -/
def ssToken (pos status count : Nat) : Nat := pos + 2 ^ 32 * status + 2 ^ 40 * count

/-! ## Issue -/

def State.enqueueS (s : State) (op : SOp) (d : BitVec 5) : Out :=
  if s.ssFull then s.stalled
  else
    let k : SCmd := { id := s.nextId, band := s.me.band, tepc := s.ctx.pc, op := op, parked := none, todo := none,
                      flow := Flow.start, res := none, reached := false }
    { (s.holdCmd.awaiting (.x d.toNat) s.nextId).modMe (fun c => { c with ssq := c.ssq ++ [k] }) with nextId := s.nextId + 1 }.issued

def ssSid (k : Word) : Nat := fieldW k 19 0
def ssLayer (k : Word) : Nat := fieldW k 27 20
def ssPos (k : Word) : Nat := fieldW k 63 32

/-- A command with a local area of 4096 bytes, which it writes when `wr`. -/
def ssArea (wr : Bool) (d a b : BitVec 5) (op : Nat → Word → SOp) (s : State) : Out :=
  s.need [.x a.toNat, .x b.toNat, .x d.toNat]
    (s.onEng (engAddr s.cur (s.X a) ownRaw 64 4096) (fun c =>
      if s.mxWait wr (lsLocs s.cur c.off 4096) then s.stalled else s.enqueueS (op c.off (s.X b)) d))

def execSsld (d a b : BitVec 5) (s : State) : Out := ssArea true d a b (fun o k => .load o (ssSid k) (ssLayer k)) s
def execSsst (d a b : BitVec 5) (n : BitVec 1) (s : State) : Out :=
  ssArea false d a b (fun o k => .store o (ssSid k) (ssLayer k) (ssPos k) (n == 1#1)) s
def execSsnap (d b : BitVec 5) (s : State) : Out :=
  s.need [.x b.toNat, .x d.toNat] (s.enqueueS (.snap (ssSid (s.X b)) (ssLayer (s.X b))) d)
def execSsroll (d b : BitVec 5) (s : State) : Out :=
  s.need [.x b.toNat, .x d.toNat] (s.enqueueS (.roll (ssSid (s.X b)) (ssLayer (s.X b)) (ssPos (s.X b))) d)
def execSsfork (d a b : BitVec 5) (s : State) : Out :=
  s.need [.x a.toNat, .x b.toNat, .x d.toNat]
    (s.enqueueS (.fork (fieldW (s.X a) 19 0) (ssSid (s.X b)) (ssLayer (s.X b)) (ssPos (s.X b))) d)
def execSsdrop (d b : BitVec 5) (s : State) : Out :=
  s.need [.x b.toNat, .x d.toNat] (s.enqueueS (.drop (ssSid (s.X b))) d)

/-! ## At the home engine (R28, R331, Table 11-6) -/

/-- The home die of a state block. -/
def homeDie (sid layer : Nat) : Nat := (sid + layer) % 2

/-- A command still has something to do at the engine of die `d`; a fork at the homes of the blocks it reads and of those it
makes. -/
def SCmd.atDie (k : SCmd) (d : Nat) : Bool :=
  match k.op, k.todo with
  | .load _ sid layer, _ | .store _ sid layer _ _, _ | .snap sid layer, _ | .roll sid layer _, _ => homeDie sid layer == d
  | .fork new sid _ _, some w => w.1.any (fun l => homeDie sid l == d || homeDie new l == d)
  | .drop sid, some w => w.1.any (fun l => homeDie sid l == d)
  | _, none => true

/-- Commands of one column reach each die in issue order (R330): those that no earlier one of the column holds up, each with
the die; a fork or drop begins when it has come to both. -/
def ssEligible : List SCmd → List (SCmd × Nat) :=
  let free (seen : List SCmd) (k : SCmd) : List (SCmd × Nat) :=
    let ds := [0, 1].filter (fun d => k.atDie d && !seen.any (fun j => j.atDie d))
    if k.parked.isSome then []
    else match k.op, k.todo with
      | .fork _ _ _ _, none | .drop _, none => if ds.length = 2 then [(k, 0)] else []
      | _, _ => ds.map (fun d => (k, d))
  let rec go (seen : List SCmd) : List SCmd → List (SCmd × Nat)
    | [] => []
    | k :: t => free seen k ++ go (seen ++ [k]) t
  go []

/-- A command has to do with the block of a key. -/
def SCmd.touches (k : SCmd) (sid layer : Nat) : Bool :=
  let left := k.todo.elim true (fun w => w.1.contains layer)
  match k.op with
  | .load _ i l | .store _ i l _ _ | .snap i l | .roll i l _ => i == sid && l == layer
  | .fork new old _ _ => (new == sid || old == sid) && left
  | .drop i => i == sid && left

/-- A command of another column has reached the home of one of the command's blocks and waits there (R330). -/
def State.ssBehind (s : State) (p : Nat) (k : SCmd) : Bool :=
  s.cols.any (fun c => decide (c.1 ≠ p) && c.2.ssq.any (fun j => j.reached && match j.op with
    | .load _ i l | .store _ i l _ _ | .snap i l | .roll i l _ => k.touches i l
    | .fork _ _ _ _ | .drop _ => false))

/-- The column's commands that can be performed now, each with a die. -/
def State.ssReady (s : State) (p : Nat) : List (SCmd × Nat) :=
  (ssEligible (s.col p).ssq).filter (fun x => !s.cmdHeld p x.1.band x.1.id && !s.ssBehind p x.1)

/-- What a command gives: a token with the state after, a part of a fork or drop, a load to be carried to its area, a trap
of cause 0x208, or a fault on a unit of the backing region. -/
inductive Ss where
  | done (token : Nat) (s : State)
  | part (s : State) (left : List Nat) (n missed : Nat)
  | carry (token : Nat) (bs : List Byte)
  | trap (cause : Nat) (tval : Word)
  | fault (e : Nat × Word)
  deriving DecidableEq, Repr

/-- Reach a unit of the backing region through the page table, as requester 4 of die `d`. (Log 140: DEDUCED, unsafe) -/
def State.ssUnit (s : State) (d u : Nat) (wr : Bool) (k : Ss) : Ss :=
  match s.reach d 4 (s.ssbase + 4096 * u) wr with
  | .error e => .fault e
  | .ok _ => k

/-- The unit a new current state goes to: its own when nothing shares it, else a free one. -/
def State.stateUnit (s : State) (b : Option SBlock) : Option Nat :=
  match b with
  | some x => if s.unitUses x.unit ≤ 1 then some x.unit else s.freeUnit
  | none => s.freeUnit

def State.ssLoad (s : State) (sid layer : Nat) : Ss :=
  match s.sblock sid layer with
  | none => .carry (ssToken 0 1 0) (List.replicate 4096 0)
  | some b => s.ssUnit (homeDie sid layer) b.unit false (.carry (ssToken b.pos 0 0) (s.unitBytes b.unit))

/-- The transfer of a command's local area: out of it for a store, into it for a load. -/
def State.ssJob (s : State) (p : Nat) (k : SCmd) (area : Nat) : Job :=
  { p := p, tmsg := s.cmdTmsg p k.band none, tepc := k.tepc, src := .ls p area, dst := .ls p area, mode := 0, len := 4096,
    lo := 0, hi := 4096 }

/-- Log 75: DEDUCED, unsafe. -/
def State.ssStore (s : State) (p : Nat) (k : SCmd) (area sid layer pos : Nat) (snap : Bool) : Ss :=
  let b := s.sblock sid layer
  let old := (b.map (·.pos)).getD 0
  if pos < old then .trap 0x208 (w64 (pos + 2 ^ 32 * old))
  else match s.stateUnit b with
    | none => .done (ssToken pos 2 0) s
    | some u =>
      let m := (List.range 512).foldl (s.ssJob p k area).fetch { st := s, flow := k.flow, fault := none }
      let nb : SBlock := { sid := sid, layer := layer, pos := pos, unit := u, snaps := (b.map (·.snaps)).getD [] }
      s.ssUnit (homeDie sid layer) u true (.done (ssToken pos 0 0)
        ((m.st.putUnit u ((m.flow.bytes 0 4096).getD [])).putBlock (if snap then nb.snapshot else nb)))

/-- Log 75: DEDUCED, unsafe. -/
def State.ssSnap (s : State) (sid layer : Nat) : Ss :=
  match s.sblock sid layer with
  | none => .done (ssToken 0 1 0) s
  | some b => .done (ssToken b.pos 0 0) (s.putBlock b.snapshot)

def State.ssRoll (s : State) (sid layer p : Nat) : Ss :=
  match s.sblock sid layer with
  | none => .done (ssToken 0 1 0) s
  | some b => match b.newest p with
    | none => .done (ssToken b.pos 1 0) s
    | some (q, u) =>
      .done (ssToken q 0 0) (s.putBlock { b with pos := q, unit := u, snaps := b.snaps.filter (fun x => decide (x.1 ≤ q)) })

/-- The blocks of a sequence, and their layers. -/
def State.seqBlocks (s : State) (sid : Nat) : List SBlock := s.blocks.filter (fun b => decide (b.sid = sid))

/-- A fork's part on one layer: a new block whose state, POS and one snapshot are the newest snapshot at or below p, with
its unit shared; the numbers of layers forked and of layers without such a snapshot. -/
def State.forkLayer (s : State) (new sid p layer n missed : Nat) : State × Nat × Nat :=
  match s.sblock sid layer with
  | none => (s, n, missed)
  | some b => match b.newest p with
    | none => (s, n, missed + 1)
    | some q => (s.putBlock { sid := new, layer := layer, pos := q.1, unit := q.2, snaps := [q] }, n + 1, missed)

/-- A drop's part on one layer. -/
def State.dropLayer (s : State) (sid layer n : Nat) : State × Nat :=
  match s.sblock sid layer with
  | none => (s, n)
  | some _ => ({ s with blocks := s.blocks.filter (fun b => decide (b.sid ≠ sid ∨ b.layer ≠ layer)) }, n + 1)

/-- One of the layers left that `at_` picks: no rule orders the parts on different blocks (R331). (Log 121: DEDUCED,
unsafe) -/
def State.pickLayer (s : State) (at_ : Nat → Bool) (l : List Nat) : Nat × State :=
  let m := l.filter at_
  let r := s.choose m.length
  ((m[r.1]?).getD 0, r.2)

/-- The next part of a fork; the token follows the last. -/
def State.forkPart (s : State) (new sid p n missed d : Nat) (w : List Nat) : Ss :=
  if w.isEmpty then .done (ssToken p 1 0) s
  else
    let l := s.pickLayer (fun x => homeDie sid x == d || homeDie new x == d) w
    let r := w.filter (fun x => decide (x ≠ l.1))
    let x := l.2.forkLayer new sid p l.1 n missed
    if r = [] then .done (ssToken p (if x.2.2 = 0 ∧ x.2.1 ≠ 0 then 0 else 1) x.2.1) x.1 else .part x.1 r x.2.1 x.2.2

/-- SSFORK begins by taking up its layers. (Log 121: DEDUCED, unsafe) -/
def State.ssFork (s : State) (new sid p d : Nat) : Option (List Nat × Nat × Nat) → Ss
  | some w => s.forkPart new sid p w.2.1 w.2.2 d w.1
  | none =>
    if s.seqBlocks new ≠ [] then .done (ssToken p 3 0) s
    else match (s.seqBlocks sid).map (·.layer) with
      | [] => .done (ssToken p 1 0) s
      | l :: t => .part s (l :: t) 0 0

/-- The next part of a drop. -/
def State.dropPart (s : State) (sid n d : Nat) (w : List Nat) : Ss :=
  if w.isEmpty then .done (ssToken 0 1 0) s
  else
    let l := s.pickLayer (fun x => homeDie sid x == d) w
    let r := w.filter (fun x => decide (x ≠ l.1))
    let x := l.2.dropLayer sid l.1 n
    if r = [] then .done (ssToken 0 (if x.2 = 0 then 1 else 0) x.2) x.1 else .part x.1 r x.2 0

/-- SSDROP begins by taking up its layers. (Log 121: DEDUCED, unsafe) -/
def State.ssDrop (s : State) (sid d : Nat) : Option (List Nat × Nat × Nat) → Ss
  | some w => s.dropPart sid w.2.1 d w.1
  | none => match (s.seqBlocks sid).map (·.layer) with
    | [] => .done (ssToken 0 1 0) s
    | l :: t => .part s (l :: t) 0 0

def State.ssDo (s : State) (p : Nat) (k : SCmd) (d : Nat) : Ss :=
  match k.op with
  | .load _ sid layer => s.ssLoad sid layer
  | .store area sid layer pos snap => s.ssStore p k area sid layer pos snap
  | .snap sid layer => s.ssSnap sid layer
  | .roll sid layer q => s.ssRoll sid layer q
  | .fork new sid _ q => s.ssFork new sid q d k.todo
  | .drop sid => s.ssDrop sid d k.todo

/-- Drop a command from the queue; replace one. -/
def Column.dropSs (c : Column) (id : Nat) : Column := { c with ssq := c.ssq.filter (fun j => decide (j.id ≠ id)) }
def Column.setSs (c : Column) (k : SCmd) : Column := { c with ssq := c.ssq.map (fun j => if j.id = k.id then k else j) }

/-- A command ends: its token is written, or its trap falls due (R307). -/
def State.ssDone (s : State) (p : Nat) (k : SCmd) (token : Nat) : State :=
  s.modCol p (fun c => (c.dropSs k.id).completeReq k.band k.id (BitVec.ofNat 512 token) 0 0)
def State.ssTrap (s : State) (p : Nat) (k : SCmd) (cause : Nat) (tval : Word) : State :=
  s.modCol p (fun c => ((c.dropSs k.id).cancelReq k.band k.id).deferAt k.band k.id cause 1 tval k.tepc)

/-- What a performed command does to the column. -/
def State.ssAfter (s : State) (p : Nat) (k : SCmd) : Ss → State
  | .done token t => t.ssDone p k token
  | .part t l n missed => t.modCol p (fun c => c.setSs { k with todo := some (l, n, missed) })
  | .carry token bs =>
    s.modCol p (fun c => c.setSs { k with
      flow := { k.flow with got := (List.range 512).map (fun g => (g, (bs.drop (8 * g)).take 8)) }, res := some token })
  | .trap cause tval => s.ssTrap p k cause tval
  | .fault e =>
    if parks e then
      (s.reportPark p e.1 e.2 (s.cmdTmsg p k.band none) k.tepc).modCol p (fun c => c.setSs { k with parked := some e, reached := true })
    else s.ssTrap p k e.1 e.2

/-- STATE_STORE_COMMAND: one of the column's commands that no earlier one holds up is performed at its home (R28, R330) and
its token written; a fork or drop block by block, one event each; a load is first performed, then its area is written
(R148). -/
def evStateStoreCommand (p : Nat) (s : State) : Option State :=
  let l := s.ssReady p
  let r := s.choose l.length
  match l[r.1]? with
  | none => none
  | some (k, d) => match k.op, k.res with
    | .load area _ _, some token =>
      some (((List.range 512).foldl (r.2.ssJob p k area).emit { st := r.2, flow := k.flow, fault := none }).st.ssDone p k token)
    | _, _ => some (r.2.ssAfter p k (r.2.ssDo p k d))

def execStateStoreCommand (c : Nat) (s : State) : Out := event (evStateStoreCommand c) s

/-- The state-store engine makes one access to the area of a column's command: it reads that of a store, or writes that of a
load that has been performed (R148). -/
def State.ssTurn (s : State) (p : Nat) (wr : Bool) (g : Nat) : Option State :=
  (s.ssReady p).findSome? (fun x => match x.1.op, wr with
    | .load area _ _, true | .store area _ _ _ _, false =>
      ((s.ssJob p x.1 area).move s x.1.flow wr g).map (fun m => m.st.modCol p (fun c => c.setSs { x.1 with flow := m.flow }))
    | _, _ => none)

end Sys2Proof.Machine
end

