-- ==== Sys2Proof/Machine/Dispatch.lean ====
section
/-!
DEFINITION. One arm per instruction and per event of the opcode table: each is one direct call of its meaning.
-/
namespace Sys2Proof.Machine

def exec (i : Instr) (s : State) : Host.Outcome State Fault Refusal :=
  match i with
  | .nop => Sys2Proof.Machine.execNop s
  | .endFiring => Sys2Proof.Machine.execEndFiring s
  | .trap a p n => Sys2Proof.Machine.execTrap a p n s
  | .tretRetry => Sys2Proof.Machine.execTretRetry s
  | .tretNext => Sys2Proof.Machine.execTretNext s
  | .tretAbort => Sys2Proof.Machine.execTretAbort s
  | .snap a c => Sys2Proof.Machine.execSnap a c s
  | .sysrd d r => Sys2Proof.Machine.execSysrd d r s
  | .syswr d r => Sys2Proof.Machine.execSyswr d r s
  | .beq a b o => Sys2Proof.Machine.execBeq a b o s
  | .bne a b o => Sys2Proof.Machine.execBne a b o s
  | .blt a b o => Sys2Proof.Machine.execBlt a b o s
  | .bge a b o => Sys2Proof.Machine.execBge a b o s
  | .bltu a b o => Sys2Proof.Machine.execBltu a b o s
  | .bgeu a b o => Sys2Proof.Machine.execBgeu a b o s
  | .jal o => Sys2Proof.Machine.execJal o s
  | .jalr d a im => Sys2Proof.Machine.execJalr d a im s
  | .loop a im => Sys2Proof.Machine.execLoop a im s
  | .ldch d a im => Sys2Proof.Machine.execLdch d a im s
  | .ldB d a im => Sys2Proof.Machine.execLdB d a im s
  | .ldH d a im => Sys2Proof.Machine.execLdH d a im s
  | .ldW d a im => Sys2Proof.Machine.execLdW d a im s
  | .ldD d a im => Sys2Proof.Machine.execLdD d a im s
  | .lduB d a im => Sys2Proof.Machine.execLduB d a im s
  | .lduH d a im => Sys2Proof.Machine.execLduH d a im s
  | .lduW d a im => Sys2Proof.Machine.execLduW d a im s
  | .ldfF32 d a im => Sys2Proof.Machine.execLdfF32 d a im s
  | .ldfBf16 d a im => Sys2Proof.Machine.execLdfBf16 d a im s
  | .stB d a im => Sys2Proof.Machine.execStB d a im s
  | .stH d a im => Sys2Proof.Machine.execStH d a im s
  | .stW d a im => Sys2Proof.Machine.execStW d a im s
  | .stD d a im => Sys2Proof.Machine.execStD d a im s
  | .stfF32 d a im => Sys2Proof.Machine.execStfF32 d a im s
  | .stfBf16 d a im => Sys2Proof.Machine.execStfBf16 d a im s
  | .vld d a b t o1 => Sys2Proof.Machine.execVld d a b t o1 s
  | .vst d a b t o1 => Sys2Proof.Machine.execVst d a b t o1 s
  | .vlds d a b t o1 => Sys2Proof.Machine.execVlds d a b t o1 s
  | .vsts d a b t o1 => Sys2Proof.Machine.execVsts d a b t o1 s
  | .vgath d a b t o1 => Sys2Proof.Machine.execVgath d a b t o1 s
  | .vscat d a b t o1 => Sys2Proof.Machine.execVscat d a b t o1 s
  | .amoAdd d a b o1 => Sys2Proof.Machine.execAmoAdd d a b o1 s
  | .amoAnd d a b o1 => Sys2Proof.Machine.execAmoAnd d a b o1 s
  | .amoOr d a b o1 => Sys2Proof.Machine.execAmoOr d a b o1 s
  | .amoXor d a b o1 => Sys2Proof.Machine.execAmoXor d a b o1 s
  | .amoMin d a b o1 => Sys2Proof.Machine.execAmoMin d a b o1 s
  | .amoMax d a b o1 => Sys2Proof.Machine.execAmoMax d a b o1 s
  | .amoSwap d a b o1 => Sys2Proof.Machine.execAmoSwap d a b o1 s
  | .amoCas d a b o1 => Sys2Proof.Machine.execAmoCas d a b o1 s
  | .fence e m r o1 => Sys2Proof.Machine.execFence e m r o1 s
  | .lfence l => Sys2Proof.Machine.execLfence l s
  | .acvtOff d a => Sys2Proof.Machine.execAcvtOff d a s
  | .acvtG d a => Sys2Proof.Machine.execAcvtG d a s
  | .acvtL d a => Sys2Proof.Machine.execAcvtL d a s
  | .acvtC d a => Sys2Proof.Machine.execAcvtC d a s
  | .acvtLc d a => Sys2Proof.Machine.execAcvtLc d a s
  | .acvtCl d a => Sys2Proof.Machine.execAcvtCl d a s
  | .atest d a => Sys2Proof.Machine.execAtest d a s
  | .recv d c => Sys2Proof.Machine.execRecv d c s
  | .send d c => Sys2Proof.Machine.execSend d c s
  | .peek d k c => Sys2Proof.Machine.execPeek d k c s
  | .chst d c => Sys2Proof.Machine.execChst d c s
  | .bella l => Sys2Proof.Machine.execBella l s
  | .bellw d l => Sys2Proof.Machine.execBellw d l s
  | .bellt d l => Sys2Proof.Machine.execBellt d l s
  | .pbarr d a b o1 => Sys2Proof.Machine.execPbarr d a b o1 s
  | .pbwait d a b o1 => Sys2Proof.Machine.execPbwait d a b o1 s
  | .mwait d a b c z o1 => Sys2Proof.Machine.execMwait d a b c z o1 s
  | .cpy d a b o1 => Sys2Proof.Machine.execCpy d a b o1 s
  | .cpyS d a b o1 => Sys2Proof.Machine.execCpyS d a b o1 s
  | .ctarm a n => Sys2Proof.Machine.execCtarm a n s
  | .ctarmOff n => Sys2Proof.Machine.execCtarmOff n s
  | .lswap d a => Sys2Proof.Machine.execLswap d a s
  | .kvapp d a b z => Sys2Proof.Machine.execKvapp d a b z s
  | .ktbfill a b => Sys2Proof.Machine.execKtbfill a b s
  | .ktbinvOne a => Sys2Proof.Machine.execKtbinvOne a s
  | .ktbinvSeq a => Sys2Proof.Machine.execKtbinvSeq a s
  | .ktbinvAll => Sys2Proof.Machine.execKtbinvAll s
  | .flpop d => Sys2Proof.Machine.execFlpop d s
  | .flpush d a => Sys2Proof.Machine.execFlpush d a s
  | .ssld d a b => Sys2Proof.Machine.execSsld d a b s
  | .ssst d a b n => Sys2Proof.Machine.execSsst d a b n s
  | .ssnap d b => Sys2Proof.Machine.execSsnap d b s
  | .ssroll d b => Sys2Proof.Machine.execSsroll d b s
  | .ssfork d a b => Sys2Proof.Machine.execSsfork d a b s
  | .ssdrop d b => Sys2Proof.Machine.execSsdrop d b s
  | .add d a b => Sys2Proof.Machine.execAdd d a b s
  | .sub d a b => Sys2Proof.Machine.execSub d a b s
  | .and d a b => Sys2Proof.Machine.execAnd d a b s
  | .or d a b => Sys2Proof.Machine.execOr d a b s
  | .xor d a b => Sys2Proof.Machine.execXor d a b s
  | .shl d a b => Sys2Proof.Machine.execShl d a b s
  | .shr d a b => Sys2Proof.Machine.execShr d a b s
  | .sar d a b => Sys2Proof.Machine.execSar d a b s
  | .slt d a b => Sys2Proof.Machine.execSlt d a b s
  | .sltu d a b => Sys2Proof.Machine.execSltu d a b s
  | .min d a b => Sys2Proof.Machine.execMin d a b s
  | .max d a b => Sys2Proof.Machine.execMax d a b s
  | .minu d a b => Sys2Proof.Machine.execMinu d a b s
  | .maxu d a b => Sys2Proof.Machine.execMaxu d a b s
  | .clz d a => Sys2Proof.Machine.execClz d a s
  | .popc d a => Sys2Proof.Machine.execPopc d a s
  | .andn d a b => Sys2Proof.Machine.execAndn d a b s
  | .addi d a im => Sys2Proof.Machine.execAddi d a im s
  | .andi d a im => Sys2Proof.Machine.execAndi d a im s
  | .ori d a im => Sys2Proof.Machine.execOri d a im s
  | .xori d a im => Sys2Proof.Machine.execXori d a im s
  | .shli d a im => Sys2Proof.Machine.execShli d a im s
  | .shri d a im => Sys2Proof.Machine.execShri d a im s
  | .sari d a im => Sys2Proof.Machine.execSari d a im s
  | .slti d a im => Sys2Proof.Machine.execSlti d a im s
  | .sltiu d a im => Sys2Proof.Machine.execSltiu d a im s
  | .mul d a b => Sys2Proof.Machine.execMul d a b s
  | .mulhs d a b => Sys2Proof.Machine.execMulhs d a b s
  | .mulhu d a b => Sys2Proof.Machine.execMulhu d a b s
  | .mulhm d a b => Sys2Proof.Machine.execMulhm d a b s
  | .mul32s d a b => Sys2Proof.Machine.execMul32s d a b s
  | .divs d a b => Sys2Proof.Machine.execDivs d a b s
  | .divu d a b => Sys2Proof.Machine.execDivu d a b s
  | .rems d a b => Sys2Proof.Machine.execRems d a b s
  | .remu d a b => Sys2Proof.Machine.execRemu d a b s
  | .li d im => Sys2Proof.Machine.execLi d im s
  | .lis d im => Sys2Proof.Machine.execLis d im s
  | .fadd d a b m => Sys2Proof.Machine.execFadd d a b m s
  | .fsub d a b m => Sys2Proof.Machine.execFsub d a b m s
  | .fmul d a b m => Sys2Proof.Machine.execFmul d a b m s
  | .fdiv d a b m => Sys2Proof.Machine.execFdiv d a b m s
  | .fsqrt d a m => Sys2Proof.Machine.execFsqrt d a m s
  | .fmin d a b => Sys2Proof.Machine.execFmin d a b s
  | .fmax d a b => Sys2Proof.Machine.execFmax d a b s
  | .fabs d a => Sys2Proof.Machine.execFabs d a s
  | .fneg d a => Sys2Proof.Machine.execFneg d a s
  | .fmadd d a b m => Sys2Proof.Machine.execFmadd d a b m s
  | .fmsub d a b m => Sys2Proof.Machine.execFmsub d a b m s
  | .fnmadd d a b m => Sys2Proof.Machine.execFnmadd d a b m s
  | .fnmsub d a b m => Sys2Proof.Machine.execFnmsub d a b m s
  | .fcmp d a b c => Sys2Proof.Machine.execFcmp d a b c s
  | .fcvtF32L d a m o1 => Sys2Proof.Machine.execFcvtF32L d a m o1 s
  | .fcvtF32Lu d a m o1 => Sys2Proof.Machine.execFcvtF32Lu d a m o1 s
  | .fcvtLF32 d a m => Sys2Proof.Machine.execFcvtLF32 d a m s
  | .fcvtLuF32 d a m => Sys2Proof.Machine.execFcvtLuF32 d a m s
  | .fcvtWF32 d a m => Sys2Proof.Machine.execFcvtWF32 d a m s
  | .fcvtBf16F32 d a m o1 => Sys2Proof.Machine.execFcvtBf16F32 d a m o1 s
  | .fcvtF32Bf16 d a => Sys2Proof.Machine.execFcvtF32Bf16 d a s
  | .vadd d a b t => Sys2Proof.Machine.execVadd d a b t s
  | .vsub d a b t => Sys2Proof.Machine.execVsub d a b t s
  | .vadds d a b t => Sys2Proof.Machine.execVadds d a b t s
  | .vsubs d a b t => Sys2Proof.Machine.execVsubs d a b t s
  | .vmul d a b t => Sys2Proof.Machine.execVmul d a b t s
  | .vmulh d a b t => Sys2Proof.Machine.execVmulh d a b t s
  | .vmin d a b t => Sys2Proof.Machine.execVmin d a b t s
  | .vmax d a b t => Sys2Proof.Machine.execVmax d a b t s
  | .vand d a b t => Sys2Proof.Machine.execVand d a b t s
  | .vor d a b t => Sys2Proof.Machine.execVor d a b t s
  | .vxor d a b t => Sys2Proof.Machine.execVxor d a b t s
  | .vshl d a b t => Sys2Proof.Machine.execVshl d a b t s
  | .vshr d a b t => Sys2Proof.Machine.execVshr d a b t s
  | .vsar d a b t => Sys2Proof.Machine.execVsar d a b t s
  | .vabs d a t => Sys2Proof.Machine.execVabs d a t s
  | .vfadd d a b t => Sys2Proof.Machine.execVfadd d a b t s
  | .vfsub d a b t => Sys2Proof.Machine.execVfsub d a b t s
  | .vfmul d a b t => Sys2Proof.Machine.execVfmul d a b t s
  | .vfdiv d a b t => Sys2Proof.Machine.execVfdiv d a b t s
  | .vfsqrt d a t => Sys2Proof.Machine.execVfsqrt d a t s
  | .vfmin d a b t => Sys2Proof.Machine.execVfmin d a b t s
  | .vfmax d a b t => Sys2Proof.Machine.execVfmax d a b t s
  | .vfabs d a t => Sys2Proof.Machine.execVfabs d a t s
  | .vfneg d a t => Sys2Proof.Machine.execVfneg d a t s
  | .vfmadd d a b t => Sys2Proof.Machine.execVfmadd d a b t s
  | .vfmsub d a b t => Sys2Proof.Machine.execVfmsub d a b t s
  | .vfnmadd d a b t => Sys2Proof.Machine.execVfnmadd d a b t s
  | .vfnmsub d a b t => Sys2Proof.Machine.execVfnmsub d a b t s
  | .vcmp q a b t c => Sys2Proof.Machine.execVcmp q a b t c s
  | .qand q r o1 => Sys2Proof.Machine.execQand q r o1 s
  | .qor q r o1 => Sys2Proof.Machine.execQor q r o1 s
  | .qxor q r o1 => Sys2Proof.Machine.execQxor q r o1 s
  | .qandn q r o1 => Sys2Proof.Machine.execQandn q r o1 s
  | .qsetx q a => Sys2Proof.Machine.execQsetx q a s
  | .qgetx d r => Sys2Proof.Machine.execQgetx d r s
  | .vsel d a b t q => Sys2Proof.Machine.execVsel d a b t q s
  | .vbcastX d a t => Sys2Proof.Machine.execVbcastX d a t s
  | .vbcastLane d a b t => Sys2Proof.Machine.execVbcastLane d a b t s
  | .vperm d a b t => Sys2Proof.Machine.execVperm d a b t s
  | .vexp2 d a t => Sys2Proof.Machine.execVexp2 d a t s
  | .vrcp d a t => Sys2Proof.Machine.execVrcp d a t s
  | .vrsq d a t => Sys2Proof.Machine.execVrsq d a t s
  | .vredAdd d a q t => Sys2Proof.Machine.execVredAdd d a q t s
  | .vredMax d a q t => Sys2Proof.Machine.execVredMax d a q t s
  | .vredMin d a q t => Sys2Proof.Machine.execVredMin d a q t s
  | .vredMaxi d a q t => Sys2Proof.Machine.execVredMaxi d a q t s
  | .vxtr d a b t => Sys2Proof.Machine.execVxtr d a b t s
  | .vpopq d q t => Sys2Proof.Machine.execVpopq d q t s
  | .vsumkAcc d a q => Sys2Proof.Machine.execVsumkAcc d a q s
  | .vsumkScale d a q => Sys2Proof.Machine.execVsumkScale d a q s
  | .vsumkFold d q => Sys2Proof.Machine.execVsumkFold d q s
  | .vsumkFin d q => Sys2Proof.Machine.execVsumkFin d q s
  | .vscan d a q t c o => Sys2Proof.Machine.execVscan d a q t c o s
  | .vhad d a k t => Sys2Proof.Machine.execVhad d a k t s
  | .vcvt d a k t o1 m => Sys2Proof.Machine.execVcvt d a k t o1 m s
  | .mzero c m => Sys2Proof.Machine.execMzero c m s
  | .mma c a b o1 => Sys2Proof.Machine.execMma c a b o1 s
  | .mmag c a b o1 => Sys2Proof.Machine.execMmag c a b o1 s
  | .mprom c => Sys2Proof.Machine.execMprom c s
  | .mrdW c v b => Sys2Proof.Machine.execMrdW c v b s
  | .mrdF32 c v b o1 m => Sys2Proof.Machine.execMrdF32 c v b o1 m s
  | .mrdBf16 c v b o1 m => Sys2Proof.Machine.execMrdBf16 c v b o1 m s
  | .mrdRaw c v b => Sys2Proof.Machine.execMrdRaw c v b s
  | .mrdStat c v => Sys2Proof.Machine.execMrdStat c v s
  | .mst c a b e o1 m => Sys2Proof.Machine.execMst c a b e o1 m s
  | .mscl c a r => Sys2Proof.Machine.execMscl c a r s
  | .seedx d a b => Sys2Proof.Machine.execSeedx d a b s
  | .seedfit d a b n => Sys2Proof.Machine.execSeedfit d a b n s
  | .firingStart c => Sys2Proof.Machine.execFiringStart c s
  | .firingResume c => Sys2Proof.Machine.execFiringResume c s
  | .firingCommit c b => Sys2Proof.Machine.execFiringCommit c b s
  | .firingAbort c b => Sys2Proof.Machine.execFiringAbort c b s
  | .watchdogExpiry c b => Sys2Proof.Machine.execWatchdogExpiry c b s
  | .starvationBoost c h => Sys2Proof.Machine.execStarvationBoost c h s
  | .trapBankEntry c => Sys2Proof.Machine.execTrapBankEntry c s
  | .deferredTrap c b => Sys2Proof.Machine.execDeferredTrap c b s
  | .emptyEntryTimeout c ch => Sys2Proof.Machine.execEmptyEntryTimeout c ch s
  | .registerWriteback c b n => Sys2Proof.Machine.execRegisterWriteback c b n s
  | .messageInjection c => Sys2Proof.Machine.execMessageInjection c s
  | .routerForward n => Sys2Proof.Machine.execRouterForward n s
  | .boundaryProbeAnswer n => Sys2Proof.Machine.execBoundaryProbeAnswer n s
  | .reductionStage n => Sys2Proof.Machine.execReductionStage n s
  | .carryAdmit n => Sys2Proof.Machine.execCarryAdmit n s
  | .messageDelivery n => Sys2Proof.Machine.execMessageDelivery n s
  | .heldMessageTimeout n => Sys2Proof.Machine.execHeldMessageTimeout n s
  | .channelOpen n => Sys2Proof.Machine.execChannelOpen n s
  | .creditMessage n => Sys2Proof.Machine.execCreditMessage n s
  | .memoryRequest n refuse => Sys2Proof.Machine.execMemoryRequest n refuse s
  | .memoryResponse n => Sys2Proof.Machine.execMemoryResponse n s
  | .acknowledgement n => Sys2Proof.Machine.execAcknowledgement n s
  | .refusal n => Sys2Proof.Machine.execRefusal n s
  | .faultNotice n => Sys2Proof.Machine.execFaultNotice n s
  | .configurationMessage n => Sys2Proof.Machine.execConfigurationMessage n s
  | .markerPass c ch => Sys2Proof.Machine.execMarkerPass c ch s
  | .snapshotAlignedCapture c j => Sys2Proof.Machine.execSnapshotAlignedCapture c j s
  | .alignmentLimitExpiry c j => Sys2Proof.Machine.execAlignmentLimitExpiry c j s
  | .taskDecrement c off amt => Sys2Proof.Machine.execTaskDecrement c off amt s
  | .spliceWavefront n => Sys2Proof.Machine.execSpliceWavefront n s
  | .spliceSwitch c => Sys2Proof.Machine.execSpliceSwitch c s
  | .mwaitRead c => Sys2Proof.Machine.execMwaitRead c s
  | .pbwaitRead c => Sys2Proof.Machine.execPbwaitRead c s
  | .matrixCommandStart c => Sys2Proof.Machine.execMatrixCommandStart c s
  | .matrixStep c => Sys2Proof.Machine.execMatrixStep c s
  | .matrixCommandComplete c => Sys2Proof.Machine.execMatrixCommandComplete c s
  | .copyStart c => Sys2Proof.Machine.execCopyStart c s
  | .copyComplete c => Sys2Proof.Machine.execCopyComplete c s
  | .templateFire c n => Sys2Proof.Machine.execTemplateFire c n s
  | .templateComplete c n => Sys2Proof.Machine.execTemplateComplete c n s
  | .lseAccept c => Sys2Proof.Machine.execLseAccept c s
  | .lseFill d n => Sys2Proof.Machine.execLseFill d n s
  | .lseRefill d n => Sys2Proof.Machine.execLseRefill d n s
  | .lseRelocate d n => Sys2Proof.Machine.execLseRelocate d n s
  | .lseComplete d n => Sys2Proof.Machine.execLseComplete d n s
  | .kvappComplete c => Sys2Proof.Machine.execKvappComplete c s
  | .freeListOperation c => Sys2Proof.Machine.execFreeListOperation c s
  | .stateStoreCommand c => Sys2Proof.Machine.execStateStoreCommand c s
  | .translationWalk c va wr => Sys2Proof.Machine.execTranslationWalk c va wr s
  | .lqDoorbell q v => Sys2Proof.Machine.execLqDoorbell q v s
  | .lqEnable q v => Sys2Proof.Machine.execLqEnable q v s
  | .lqDisable q v => Sys2Proof.Machine.execLqDisable q v s
  | .launch q => Sys2Proof.Machine.execLaunch q s
  | .spliceLaunch q => Sys2Proof.Machine.execSpliceLaunch q s
  | .noopPacket q => Sys2Proof.Machine.execNoopPacket q s
  | .imageFetch q => Sys2Proof.Machine.execImageFetch q s
  | .graphEnd n => Sys2Proof.Machine.execGraphEnd n s
  | .recordRingEnable q v => Sys2Proof.Machine.execRecordRingEnable q v s
  | .recordRingDisable q v => Sys2Proof.Machine.execRecordRingDisable q v s
  | .recordRingHeadWrite q v => Sys2Proof.Machine.execRecordRingHeadWrite q v s
  | .engineRegionWrite n v => Sys2Proof.Machine.execEngineRegionWrite n v s
  | .freeListHostPush v => Sys2Proof.Machine.execFreeListHostPush v s
  | .lseHostPost d v => Sys2Proof.Machine.execLseHostPost d v s
  | .ccinvWrite v => Sys2Proof.Machine.execCcinvWrite v s
  | .ptrootWrite v => Sys2Proof.Machine.execPtrootWrite v s
  | .retry v => Sys2Proof.Machine.execRetry v s
  | .fail v => Sys2Proof.Machine.execFail v s
  | .refire v => Sys2Proof.Machine.execRefire v s
  | .release v => Sys2Proof.Machine.execRelease v s
  | .kill v => Sys2Proof.Machine.execKill v s
  | .inval v => Sys2Proof.Machine.execInval v s
  | .step v => Sys2Proof.Machine.execStep v s
  | .run v => Sys2Proof.Machine.execRun v s
  | .bar2Read off len => Sys2Proof.Machine.execBar2Read off len s
  | .bar2Write off data => Sys2Proof.Machine.execBar2Write off data s
  | .hostAtomicopRequest => Sys2Proof.Machine.execHostAtomicopRequest s
  | .genericRegisterWrite off v => Sys2Proof.Machine.execGenericRegisterWrite off v s
  | .resetRelease => Sys2Proof.Machine.execResetRelease s
  | .bootComplete => Sys2Proof.Machine.execBootComplete s
  | .ident v => Sys2Proof.Machine.execIdent v s
  | .attest v => Sys2Proof.Machine.execAttest v s
  | .updstage v => Sys2Proof.Machine.execUpdstage v s
  | .updactivate v => Sys2Proof.Machine.execUpdactivate v s
  | .svncommit v => Sys2Proof.Machine.execSvncommit v s
  | .doze v => Sys2Proof.Machine.execDoze v s
  | .wake v => Sys2Proof.Machine.execWake v s
  | .wakeComplete => Sys2Proof.Machine.execWakeComplete s
  | .replan v => Sys2Proof.Machine.execReplan v s
  | .rcarm v => Sys2Proof.Machine.execRcarm v s
  | .rctrig v => Sys2Proof.Machine.execRctrig v s
  | .rchostWrite v => Sys2Proof.Machine.execRchostWrite v s
  | .rollCallPin => Sys2Proof.Machine.execRollCallPin s
  | .rcread v => Sys2Proof.Machine.execRcread v s
  | .inject v => Sys2Proof.Machine.execInject v s
  | .jread v => Sys2Proof.Machine.execJread v s
  | .jclear v => Sys2Proof.Machine.execJclear v s
  | .sensorSample n v => Sys2Proof.Machine.execSensorSample n v s
  | .replanTimer => Sys2Proof.Machine.execReplanTimer s
  | .voltageOffsetStep c => Sys2Proof.Machine.execVoltageOffsetStep c s
  | .retrainingDue d => Sys2Proof.Machine.execRetrainingDue d s
  | .retrainingStart d => Sys2Proof.Machine.execRetrainingStart d s
  | .retrainingForced d => Sys2Proof.Machine.execRetrainingForced d s
  | .retrainingEnd d => Sys2Proof.Machine.execRetrainingEnd d s
  | .externalLinkFailure port far => Sys2Proof.Machine.execExternalLinkFailure port far s
  | .illegalInstruction cause v => Sys2Proof.Machine.execIllegalInstruction cause v s
  | .unknownCommand v => Sys2Proof.Machine.execUnknownCommand v s
  | .badPacket q => Sys2Proof.Machine.execBadPacket q s
  | .powerLoss => Sys2Proof.Machine.execPowerLoss s

end Sys2Proof.Machine
end

