-- ==== Sys2Proof/Machine/Engines.lean ====
section
/-!
DEFINITION. The accesses that engines make between the start of a command and its completion (R148).
-/
namespace Sys2Proof.Machine

/-- One access of an engine to granule `g`: none when it is not due. -/
def State.engTurn (s : State) (who : Engine) (wr : Bool) (g : Nat) : Option State :=
  match who with
  | .copy p => s.copyTurn p wr g
  | .kv p => s.kvTurn p wr g
  | .state p => s.ssTurn p wr g
  | .lse d n => s.lseTurn d n wr g
  | .matrix p => if wr then none else s.matrixTurn p g

end Sys2Proof.Machine
end

