-- ==== Sys2Proof/Machine/Issue.lean ====
section
/-!
DEFINITION. Issue of groups (R190 to R196), what falls due at a group boundary (R435), the passing of cycles, the order
in which the package's own steps are tried when nothing is scheduled, and the placing of a word where the next step
fetches it.
-/
namespace Sys2Proof.Machine

/-! ## The words of a group -/

/-- The word now issuing. -/
def State.enter (s : State) (raw pc next : Nat) (aw : Bool) : State :=
  { s with ctx := { raw := raw, pc := pc, next := next, aw := aw }, redirect := none }

/-- An encoding cause of the group at `pc`; the A word is the one named for 0x001 of an A word and for 0x007. -/
def State.illegal (s : State) (cause : Nat) (tval : Word) (pc : Nat) (aw : Bool) : Out :=
  execIllegalInstruction cause tval (s.enter 0 pc pc aw)

/-- A lone word (R190, R199). -/
def State.loneWord (s : State) (w pc next : Nat) : Out :=
  match decodeNat w with
  | .error r => s.illegal 1 (wordTval w pc r) pc false
  | .ok (_, i) => exec i (s.enter w pc next false)

/-- Words whose effect would show in the A word's reads take effect after it (R193, R195). -/
def afterA : Instr → Bool
  | .endFiring | .tretRetry | .tretNext | .tretAbort => true
  | _ => false

/-- A word with which the trap bank ends by itself: that it ends the firing, or passes the exit of its loop, is its effect and
no trap at issue (R219). -/
def State.leaves (s : State) : Instr → Bool
  | .tretNext | .tretAbort => s.me.inTrap
  | _ => false

/-- The word's outcome is a trap at issue, or a park. -/
def State.cancels (s : State) (i : Instr) (l : Last) : Bool := l != .issued && l != .stalled && !(s.leaves i && l == .trapped)

/-- Both words issue: `c` is the state after the C word alone, `a` after the A word alone, `sc` and `sa` the states in
which they issue. Both have read their sources before either writes (R193). (Log 16: DEDUCED, unsafe) -/
def State.together (i j : Instr) (c a sc sa : State) : Out :=
  match i with
  | .syswr d r => .next (a.modMe (fun k => k.sysWrite r.toNat (sc.X d)))
  | _ => if afterA i then exec i { a with ctx := sc.ctx } else exec j { c with ctx := sa.ctx }

/-- The two words of a pair: a stall of either holds the group (R192); a trap of either cancels it, the C word's first
(R194). (Log 16: DEDUCED, unsafe; 17: DEDUCED, unsafe) -/
def State.bothWords (s : State) (i j : Instr) (w w2 pc next : Nat) : Out :=
  let sc := s.enter w pc next false
  let sa := s.enter w2 pc next true
  match exec i sc, exec j sa with
  | .next c, .next a =>
    if c.last = .stalled then .next c
    else if a.last = .stalled then s.stalled
    else if s.cancels i c.last then .next c
    else if s.cancels j a.last then .next a
    else State.together i j c a sc sa
  | .next _, r => r
  | r, _ => r

/-- An illegal A word: the C word's trap at issue comes before it (R194); a C word that stalls holds the group. (Log
17: DEDUCED, unsafe) -/
def State.illegalA (s : State) (i : Instr) (r w w2 pc next : Nat) : Out :=
  match exec i (s.enter w pc next false) with
  | .next c => if c.last = .stalled ∨ s.cancels i c.last = true then .next c else s.illegal 1 (wordTval w2 (pc + 4) r) pc true
  | o => o

/-- A pair: 0x001 of the C word, 0x001 of the A word, 0x007, in this order (R202). (Log 16: DEDUCED, unsafe; 17:
DEDUCED, unsafe) -/
def State.pairWords (s : State) (w w2 pc next : Nat) : Out :=
  match decodeNat w with
  | .error r => s.illegal 1 (wordTval w pc r) pc false
  | .ok (_, i) => match decodeNat w2 with
    | .error r => s.illegalA i r w w2 pc next
    | .ok (_, j) =>
      if sameDest i j then s.illegal 7 (wordTval w2 pc 0) pc true else s.bothWords i j w w2 pc next

/-! ## After a group -/

/-- The instruction of a group that may take a branch: its first word. -/
def firstInstr (w : Nat) : Option Instr :=
  match decodeNat w with
  | .ok (_, i) => some i
  | .error _ => none

/-- A taken branch, JAL or JALR is followed by two cycles in which nothing issues (R393). -/
def Instr.branches : Instr → Bool
  | .beq _ _ _ | .bne _ _ _ | .blt _ _ _ | .bge _ _ _ | .bltu _ _ _ | .bgeu _ _ _ | .jal _ | .jalr _ _ _ => true
  | _ => false

/-- What orders hold back at issue besides loads, stores and atomics, which look at the locations they reach (R143, R145): the
landing copy of RECV (2) and the capture of SEND (1), the arming of a template (4); messages, bells and matrix commands (8).
An engine command issues and is held at its start (`cmdHeld`). -/
def Instr.orderKind : Instr → Nat
  | .ctarm _ _ => 4
  | .recv _ _ => 10
  | .send _ _ => 9
  | .peek _ _ _ | .bella _ | .bellw _ _ | .bellt _ _ | .mzero _ _ | .mma _ _ _ _ | .mmag _ _ _ _ | .mprom _
  | .mrdW _ _ _ | .mrdF32 _ _ _ _ _ | .mrdBf16 _ _ _ _ _ | .mrdRaw _ _ _ | .mrdStat _ _ | .mst _ _ _ _ _ _ | .mscl _ _ _
  | .seedx _ _ _ | .seedfit _ _ _ _ => 8
  | _ => 0

/-- The words of a group wait for the orders that hold them back. -/
def State.ordered (s : State) (ws : List Nat) (k : Out) : Out :=
  match (ws.map (fun w => (firstInstr w).elim 0 Instr.orderKind)).flatMap (fun n => s.heldBy n []) with
  | [] => k
  | o :: t => s.waitCmds ((o :: t).flatMap (·.engs))

/-- Cycles pass at the issuing column; its running firing's watchdog counts them once its first group has issued
(R53). (Log 84: DEDUCED, unsafe) -/
def Column.pass (c : Column) (n : Nat) (issued : Bool) : Column :=
  (c.later n).modFiring c.band (fun f =>
    if (f.begun || issued) && f.park.isNone then { f with begun := true, spent := f.spent + n } else f)

/-- The results of the group become pending for later groups, and its orders hold them back. (Log 13: DESIGN CHOICE,
unsafe) -/
def Column.ageAll (c : Column) : Column :=
  ([0, 1, 2, 3, 4].foldl (fun c b => c.modBank b Bank.age) c).modFiring c.band (fun f =>
    { f with orders := f.orders.map (fun (o : Order) => { o with fresh := false }) })

/-- The LOOP state and next address after a group in sequence, `l0` the loop active before it; none: the exit was passed
(R216). -/
def nextInSeq (l0 l : Option LoopSt) (pc next : Nat) : Option (Option LoopSt × Nat × Bool) :=
  match l0 with
  | some k => if l = l0 then k.after pc next else some (l, next, false)
  | none => some (l, next, false)

/-- The firing goes on at `pc'`. -/
def State.goTo (s : State) (pc' : Nat) (jump : Option Word) (last : Nat) (w : Bool) : State :=
  s.modFire (fun f => { f with pc := pc', jump := jump, last := last, drain := f.drain || w })

/-- The next group of the bank that issued the one at `pc` (R190, R213 to R216, R393); `l0` its loop before the group,
`inTrap` whether the trap bank issued it. TRET has set its own next group. (Log 41: DEDUCED, unsafe) -/
def State.advance (s : State) (l0 : Option LoopSt) (inTrap : Bool) (w pc next : Nat) : State :=
  let word := w64 w
  let drain := bitN w 29
  if s.me.inTrap ≠ inTrap then
    (s.modFire (fun f => { f with drain := f.drain || drain })).modMe (fun c => c.pass 1 true)
  else match s.redirect with
    | some t =>
      let n := if (firstInstr w).elim false Instr.branches then 3 else 1
      (s.goTo t (some word) pc drain).modMe (fun c => c.pass n true)
    | none => match nextInSeq l0 s.bk.loop pc next with
      | none => s.takeTrap 0x188 (w64 ((l0.map (·.stop)).getD 0)) false pc false
      | some (l, nx, back) =>
        ((s.modBk (fun k => { k with loop := l })).goTo nx (if back then some word else none) pc drain).modMe
          (fun c => c.pass 1 true)

/-- The first of some steps whose conditions hold. -/
def firstOf (s : State) : List (State → Option State) → Option State
  | [] => none
  | f :: t => match f s with
    | some u => some u
    | none => firstOf s t

/-- A firing in step mode stops after the group it issued, the one with END included, once its watchdog has been looked at
and a deferred trap that is due has been taken (R435, R444). (Log 43: DEDUCED, unsafe) -/
def State.stepStop (s : State) : State :=
  match s.fire with
  | some f =>
    if f.stepMode && f.ending == false && s.me.running.isSome then
      let s := (firstOf s [evWatchdog s.cur s.me.band, evDeferredTrap s.cur s.me.band]).getD s
      match s.fire with
      | some g => if g.ending then s else s.debugStop s.cur s.me.band
      | none => s
    else s
  | none => s

/-- What the step makes of a group's outcome. (Log 41: DEDUCED, unsafe) -/
def State.conclude (s : State) (w pc next : Nat) : Out → Out
  | .next t => match t.last with
    | .issued => .next ((((t.advance s.bk.loop s.me.inTrap w pc next).modMe Column.ageAll).openCaptures s.cur).stepStop)
    | .stalled => .next (t.modMe (fun c => c.pass 1 false))
    | .parked => .next (t.modMe Column.setAside)
    | .trapped => .next (t.modMe Column.ageAll)
    | .waited => .next t
  | r => r

/-- The corrected errors of a fetched group's words are counted once it no longer stalls (R434). (Log 123: DEDUCED,
unsafe) -/
def State.countFetch (p pc n : Nat) : Out → Out
  | .next t => if t.last = .stalled then .next t
      else .next (t.countRead ((List.range n).map (fun i => .ls p (pc + i))))
  | r => r

/-- Fetch and issue the group at the running firing's pc (R190). -/
def State.issueGroup (s : State) (f : Firing) : Out :=
  match s.fetchGroup s.cur f.pc f.jump f.last with
  | .trap cause v =>
    if cause = 0x305 then .next (s.takeTrap cause v false f.pc false) else s.illegal cause v f.pc false
  | .lone w next => s.conclude w f.pc next (State.countFetch s.cur f.pc 4 (s.ordered [w] (s.loneWord w f.pc next)))
  | .pair w w2 next =>
    s.conclude w f.pc next (State.countFetch s.cur f.pc 8 (s.ordered [w, w2] (s.pairWords w w2 f.pc next)))

/-- The LSE commands an LFENCE waits for have written the slice, and no retraining pauses the ports (R147). (Log 33:
DEDUCED, unsafe) -/
def State.lfenceOver (s : State) (f : Firing) : Bool :=
  f.lwait.elim true (fun l => !s.proctor.rtPause.contains (dieOf s.cur) &&
    !(sget [] s.lse (dieOf s.cur)).any (fun k => l.contains k.id && !k.switched))

/-- What the firing waited for before a later group may issue has come about (R146, R147, R196). -/
def State.drained (s : State) (f : Firing) : Bool :=
  s.lfenceOver f && (!f.drain || (!s.memBusy s.me.band && (s.engineIds s.cur s.me.band).isEmpty))

/-- A group waits for a drain; a parked command it waits for parks the firing (R328, R439). -/
def State.waitDrain (s : State) (f : Firing) : Out :=
  s.conclude 0 f.pc f.pc (if f.drain then s.waitCmds (s.engineIds s.cur s.me.band) else s.stalled)

/-! ## One turn of a column -/

/-- What falls due at column p before its next group, in the order of R435 and R53; commit step 2 comes before the
watchdog. -/
def State.dueAt (s : State) (p : Nat) : Option State :=
  let b := (s.col p).band
  firstOf s [evFiringCommit p b, evWatchdog p b, evDeferredTrap p b, evFiringAbort p b, evFiringStart p, evFiringResume p]

/-- A cycle in which the column issues nothing. (Log 13: DESIGN CHOICE, unsafe) -/
def State.idleCycle (s : State) : Out := .next { s.modMe (fun c => c.pass 1 false) with last := .waited }

/-- The issue slot of the current column, results that are due having been written. -/
def State.issueNow (s : State) : Out :=
  match s.me.running, s.fire with
  | some _, some f =>
    if f.park.isSome then s.idleCycle
    else if f.phase = .run then
      if s.drained f then (s.modFire (fun g => { g with drain := false, lwait := none })).issueGroup f else s.waitDrain f
    else s.idleCycle
  | _, _ => s.idleCycle

/-- Handlers that are runnable without starting count the cycles that have passed (R52). -/
def State.starvation (s : State) (p : Nat) : State :=
  let c := s.col p
  let n := c.cycle - c.starveAt
  let st := c.handlers.foldl (fun m h =>
    if s.runnable p h.1 then sput 0 m h.1 (min 65536 (sget 0 c.starve h.1 + n)) else m) []
  if n == 0 then s else s.modCol p (fun c => { c with starve := st, starveAt := c.cycle })

/-- The responses of column p whose fixed latency has passed (Table 16-2): each is performed, after the requests before it,
and its register bound. `fuel` bounds their number. -/
def State.settleReqs (s : State) (p : Nat) : Nat → State
  | 0 => s
  | fuel + 1 =>
    match findIx (fun (r : MemReq) => decide (r.col = p) && decide (r.due ≠ 0) && decide (r.due ≤ (s.col p).cycle)) s.reqs with
    | none => s
    | some n =>
      let s := (List.range (n + 1)).foldl (fun (s : State) m => (evMemoryRequest m none false s).getD s) s
      ((firstOf s [evMemoryResponse n, evRefusal n]).getD s).settleReqs p fuel

/-- The turn of column p begins: the responses of fixed latency that are due have come (Table 16-2), due results are written
(R249) and starvation is counted (R52). -/
def State.turned (s : State) (p : Nat) : State :=
  ({ s.settleReqs p s.reqs.length with cur := p }.modCol p Column.retire).starvation p

/-- One turn of column p: due results are written, what is due happens, else its next group issues (R51, R249). In any
power state but run the columns are clocked off (R456). (Log 5: DESIGN CHOICE, unsafe; 11: DESIGN CHOICE, unsafe) -/
def State.turn (s : State) (p : Nat) : Out :=
  if s.proctor.power = .run then
    match (s.turned p).dueAt p with
    | some t => .next { t with last := .issued }
    | none => (s.turned p).issueNow
  else s.idle

/-! ## The package's own steps -/

/-- The indices of a list. -/
def ixs {α : Type} (l : List α) : List Nat := List.range l.length

/-- Steps of one column that its state may allow. -/
def Column.events (c : Column) (p : Nat) : List (State → Out) :=
  [execMatrixCommandComplete p, execMatrixStep p, execMatrixCommandStart p, execCopyComplete p, execCopyStart p, execKvappComplete p,
   execFreeListOperation p, execStateStoreCommand p, execLseAccept p, execMessageInjection p, execSpliceSwitch p] ++
  c.templates.flatMap (fun t => [execTemplateComplete p t.1, execTemplateFire p t.1]) ++
  c.chans.flatMap (fun k => [execMarkerPass p k.1, execEmptyEntryTimeout p k.1]) ++
  c.joins.flatMap (fun j => [execSnapshotAlignedCapture p j.jidx, execAlignmentLimitExpiry p j.jidx]) ++
  c.handlers.map (fun h => execStarvationBoost p h.1) ++
  [0, 1, 2, 3].map (fun b => execFiringAbort p b)

/-- The Proctor begins the power-up sequence once, when the reset is released. -/
def State.powerUp (s : State) : Out :=
  if s.proctor.power = .boot ∧ s.proctor.begun = false then execResetRelease s else s.idle

/-- Every step the package may take of itself, in the order in which the model tries them. -/
def State.events (s : State) : List (State → Out) :=
  [State.powerUp, execBootComplete, execWakeComplete, execReplanTimer] ++
  [0, 1].flatMap (fun d => [execRetrainingDue d, execRetrainingStart d, execRetrainingForced d, execRetrainingEnd d]) ++
  s.proctor.target.map (fun t => execVoltageOffsetStep t.1) ++
  (ixs s.notices).map execFaultNotice ++ (ixs s.confs).map execConfigurationMessage ++
  (ixs s.wavefronts).map execSpliceWavefront ++ (ixs s.credits).map execCreditMessage ++ (ixs s.opens).map execChannelOpen ++
  (ixs s.reqs).flatMap (fun n => [execMemoryRequest n false, execMemoryResponse n, execAcknowledgement n, execRefusal n]) ++
  (ixs s.flights).flatMap (fun n => [execMessageDelivery n, execBoundaryProbeAnswer n, execCarryAdmit n, execRouterForward n,
    execHeldMessageTimeout n]) ++
  (s.flights.filter (fun f => f.msg.kind == 3)).map (fun f =>
    execTaskDecrement (f.msg.dest % 256) (f.msg.payNat 0 3) (f.msg.payNat 4 2)) ++
  s.stages.map (fun t => execReductionStage t.1) ++
  s.cols.flatMap (fun c => c.2.events c.1) ++
  s.lse.flatMap (fun l => (ixs l.2).flatMap (fun n => [execLseFill l.1 n, execLseRefill l.1 n, execLseRelocate l.1 n,
    execLseComplete l.1 n])) ++
  s.lq.flatMap (fun q => [execImageFetch q.1, execLaunch q.1, execSpliceLaunch q.1, execNoopPacket q.1, execBadPacket q.1]) ++
  s.regions.map (fun r => execGraphEnd r.id)

/-- The first step of a list that happens. -/
def State.tryAll (s : State) : List (State → Out) → Option Out
  | [] => none
  | f :: t => match f s with
    | .next u => if u.last = .waited then s.tryAll t else some (.next u)
    | r => some r

/-- The column that issues next: columns that exist in the table take turns. -/
def State.nextColumn (s : State) : Nat :=
  match s.cols.find? (fun c => decide (s.cur < c.1)) with
  | some c => c.1
  | none => (s.cols.head?.map (·.1)).getD 0

/-- With nothing scheduled: the package's own steps, then the next column's turn; the journal's buffer empties
meanwhile. (Log 11: DESIGN CHOICE, unsafe; 12: DESIGN CHOICE, unsafe; 110: DESIGN CHOICE, unsafe) -/
def State.auto (s : State) : Out :=
  let s := if s.proctor.power = .off then s else s.modProctor Proctor.flush
  match s.tryAll s.events with
  | some r => r
  | none => s.turn s.nextColumn

/-! ## Turns of the schedule -/

/-- A stored bit flips in a granule (R434); masks add up. -/
def flip (m : List (Nat × Nat)) (g mask : Nat) : List (Nat × Nat) := sput 0 m g (sget 0 m g ^^^ mask % 2 ^ 72)

/-- Granule `g` of column p's own local store is read for its next group before the rest of that group's access: the group could
issue now (R135). -/
def State.readEarly (s : State) (p g : Nat) : Option State :=
  let s' := s.turned p
  if s.proctor.power = .run ∧ s'.dueAt p = none then
    match s'.issueNow with
    | .next t => if t.last = .issued then
        some { s' with early := s'.early ++ [(p, g, s'.rdBytes (.ls p (8 * g)) 8)] }
      else none
    | _ => none
  else none

/-- Column p's turn, in which its group accesses the own local store granule by granule (R135). -/
def State.turnApart (s : State) (p : Nat) : Out :=
  match ({ s with apart := true } : State).turn p with
  | .next t => .next { t with apart := false, early := t.early.filter (fun e => e.1 != p) }
  | r => r

/-- The turns during which a column's access to its own local store can still be under way: those of other columns, requests
and engines (R135). -/
def Turn.leavesOpen : Turn → Bool
  | .issue _ | .issueApart _ | .granule _ _ | .early _ _ | .late _ | .engine _ _ _ => true
  | .event i => match i with
    | .memoryRequest _ _ | .memoryResponse _ | .acknowledgement _ => true
    | _ => false
  | _ => false

/-- The access that column c has under way ends with the turn, because the column goes on. -/
def Turn.goesOn (c : Nat) : Turn → Bool
  | .issue p | .issueApart p | .early p _ => p == c
  | t => !t.leavesOpen

/-- What column c has read early stays for the turn: the group it belongs to issues, or reads another granule early. -/
def Turn.keepsEarly (c : Nat) : Turn → Bool
  | .issueApart _ | .early _ _ => true
  | t => !t.goesOn c

/-- Accesses under way that a turn ends are ended first: what is still to be written is written; what has been read early is
dropped, but for the turn that uses it. (Log 153: DESIGN CHOICE, unsafe) -/
def State.settleOwn (s : State) (t : Turn) : State :=
  if s.late.isEmpty && s.early.isEmpty then s
  else { s.writeLate (fun w => t.goesOn w.1) with early := s.early.filter (fun e => t.keepsEarly e.1) }

/-- A mailbox command is carried out. -/
def mailboxCommand (v : Word) (s : State) : Out :=
  match fieldW v 7 0 with
  | 0x01 => execIdent v s
  | 0x02 => execAttest v s
  | 0x03 => execUpdstage v s
  | 0x04 => execUpdactivate v s
  | 0x05 => execSvncommit v s
  | 0x06 => execDoze v s
  | 0x07 => execWake v s
  | 0x10 => execReplan v s
  | 0x11 => execRcarm v s
  | 0x12 => execRctrig v s
  | 0x13 => execRcread v s
  | 0x14 => execInject v s
  | 0x15 => execJread v s
  | 0x16 => execJclear v s
  | _ => execUnknownCommand v s

/-- One turn. An instruction with an encoding is issued by a column, never as an event. (Log 11: DESIGN CHOICE,
unsafe; 12: DESIGN CHOICE, unsafe) -/
def State.runTurn (s : State) : Turn → Out
  | .issue c => s.turn c
  | .event i => if i.encoded then s.idle else exec i s
  | .flipLs c g m => .next { s.modCol c (fun k => { k with lsFlip := flip k.lsFlip g m }) with last := .issued }
  | .flipGd g m => .next { s with gdFlip := flip s.gdFlip g m, last := .issued }
  | .flipStack c g m => .next { s.modCol c (fun k => { k with stkFlip := flip k.stkFlip g m }) with last := .issued }
  | .hostStore a d => .next { s.wrBytes (.host a) d with last := .issued }
  | .decrement p q off amt => event (fun s => s.sendDecrement p q off amt) s
  | .granule n k => event (evMemoryRequest n (some k) false) s
  | .issueApart c => s.turnApart c
  | .early c g => event (fun s => s.readEarly c g) s
  | .late g => .next { s.writeLate (fun w => match w.2.loc with
      | .ls _ o => o / 8 == g
      | _ => false) with last := .issued }
  | .engine who wr g => event (fun s => s.engTurn who wr g) s
  | .bar2Granule g data => barEvent (fun s => s.bar2Early g data) s
  | .bar2Size n => event (fun s => s.resize n) s
  | .mbStart v => event (fun s => s.mbStart v) s
  | .mbEnd => match s.proctor.mbrun with
    | none => s.idle
    | some v => mailboxCommand v (s.modProctor (fun p => { p with mbstat := 0, mbrun := none }))
  | .journalFlush =>
    if s.proctor.power = .off ∨ s.proctor.jbuf = [] then s.idle else .next { s.modProctor Proctor.flush with last := .issued }

/-- The next turn of the schedule, or what the package does of itself; the stack interfaces act in every cycle (R443). -/
def State.next (s : State) : Out :=
  let s := s.ports
  match s.agenda with
  | [] => (s.settleOwn (.event .nop)).auto
  | t :: rest => ({ s with agenda := rest }.settleOwn t).runTurn t

/-- One cycle of the mesh clock passes with every step; 3,200 of them are a microsecond of powered time. The package cycle count
stands still in doze (R427). (Log 84: DEDUCED, unsafe) -/
def tickPackage : Out → Out
  | .next s =>
    let p := s.proctor
    .next { s with pktCycle := if p.power = .doze then s.pktCycle else s.pktCycle + 1, clock := s.clock + 1,
                   proctor := { p with usec := if (s.clock + 1) % 3200 = 0 ∧ p.power ≠ .off then p.usec + 1 else p.usec } }
  | r => r

/-! ## Placing a word where the next step fetches it -/

/-- A handler entry for a placed word: handler 0, band 0, nothing declared. (Log 18: DESIGN CHOICE, unsafe) -/
def placedEntry : Entry :=
  { col := 0, hidx := 0, task := true, level := 0, budget := 0xFFFFFFFF, acc := 0, entry := 0, arg := 0, ins := [],
    outs := [], counter := 0, saga := [], sagb := [] }

/-- Column 0 runs a firing: the one it has, or one placed at offset 0. (Log 18: DESIGN CHOICE, unsafe) -/
def State.withFiring (s : State) : State :=
  if (s.col 0).running.isSome ∧ ((s.col 0).firing (s.col 0).band).isSome then s
  else s.modCol 0 (fun c => c.begin placedEntry 0)

/-- The bytes of the group that holds a word: a first word of a pair is followed by `add x0, x0, x0`, a second word is
preceded by NOP. -/
def groupBytes (w : Nat) : List Byte :=
  let b := leBytes 4 w
  if fieldN w 31 30 = 0 then b ++ leBytes 4 0xC0000000
  else if fieldN w 31 30 = 3 then leBytes 4 0 ++ b
  else b

/-- The package runs, column 0 has a firing, the word's group stands at its pc, and column 0's turn is next. -/
def State.placeWord (s : State) (w : Nat) : State :=
  let s := { s with proctor := { s.proctor with power := .run, begun := true } }.withFiring
  let pc := ((s.col 0).firing (s.col 0).band).elim 0 (·.pc)
  { s.wrBytes (.ls 0 pc) (groupBytes (w % 2 ^ 32)) with agenda := .issue 0 :: s.agenda }

end Sys2Proof.Machine
end

