-- ==== Sys2Proof/Machine/Step.lean ====
section
/-!
DEFINITION. One step of the package, and the placing of an instruction word where the next step fetches it.
-/
namespace Sys2Proof.Machine

/-- One step: the next turn of the schedule, or, with nothing scheduled, what the package does of itself. -/
def step (s : State) : Host.Outcome State Fault Refusal := tickPackage s.next

/-- `s` with the word stored where column 0 fetches its next group, and column 0's turn next. (Log 18: DESIGN CHOICE,
unsafe) -/
def State.withFetchWord (s : State) (_nbits w : Nat) : State := s.placeWord w

end Sys2Proof.Machine
end

