-- ==== Sys2Proof/Safety.lean ====
section
/-!
DEFINITION. The terms in which claims about the machine are stated: what an issued word leaves behind, what a frame says,
and which states are well formed.
-/
namespace Sys2Proof.Machine

/-! ## What an issued word leaves behind -/

/-- The word has issued, or the event has happened, in state `s`. -/
def State.done (s : State) : State := { s with last := .issued }

/-- The word has issued with one result: `w` reaches register `r` once `lat` cycles have passed, with the flags `fl` and
the flush count `ftz` it raises (R176, R249). -/
def State.delivers (s : State) (r : Reg) (w : VWord) (lat : Nat) (fl : Nat := 0) (ftz : Nat := 0) : State :=
  (s.result r w lat fl ftz).done

/-- The same for a scalar register. -/
def State.deliversX (s : State) (d : BitVec 5) (w : Word) (lat : Nat) (fl : Nat := 0) (ftz : Nat := 0) : State :=
  s.delivers (.x d.toNat) (w.setWidth 512) lat fl ftz

/-- The same for a vector register given by its lanes of type `t`. -/
def State.deliversV (s : State) (d : BitVec 5) (t : Nat) (l : List Nat) (lat : Nat) : State :=
  s.delivers (.v d.toNat) (pack (laneW t) l) lat

/-- The same for lanes that have been rounded, with the flags the roundings raise. -/
def State.deliversR (s : State) (d : BitVec 5) (t : Nat) (l : List Rnd) (lat : Nat) : State :=
  s.delivers (.v d.toNat) (pack (laneW t) (l.map (·.code))) lat (flagsOf l) (ftzOf l)

/-- The same for a scalar float result: the code of a rounding, zero-extended, with its flags and those of the operation
that formed its operand (R251). -/
def State.deliversF (s : State) (d : BitVec 5) (r : Rnd) (inv lat : Nat) : State :=
  s.delivers (.x d.toNat) (BitVec.ofNat 512 r.code) lat (r.fl ||| inv) r.ftz

/-- The registers are free of pending results and the unit accepts an instruction, so that the word can issue. -/
def State.unitReady (s : State) (u : Nat) (rs : List Reg) : Prop := s.ready rs = true ∧ s.unitFree u = true

/-! ## A column that comes to its group -/

/-- Column p's turn, the first of the schedule, has begun, once the stack interfaces have acted (R443) and what the turn ends of
accesses made granule by granule has ended (R135). -/
def State.atTurn (s : State) (p : Nat) (rest : List Turn) : State :=
  (({ s.ports with agenda := rest } : State).settleOwn (.issue p)).turned p

/-- The issuing column's state when it comes to its group: its turn begun, and what an earlier group waited for come about
(R146, R147). -/
def State.atIssue (s : State) (p : Nat) (rest : List Turn) : State :=
  (s.atTurn p rest).modFire (fun f => { f with drain := false, lwait := none })

/-- Column p's turn comes, the package runs, nothing is due at the group boundary, and its running firing f may issue. -/
def State.readyToIssue (s : State) (p : Nat) (rest : List Turn) (f : Firing) : Prop :=
  let u := s.atTurn p rest
  s.agenda = .issue p :: rest ∧ s.proctor.power = .run ∧ u.dueAt p = none ∧ u.me.running.isSome = true ∧
    u.fire = some f ∧ f.park = none ∧ f.phase = .run ∧ u.drained f = true

/-! ## Memory instructions -/

/-- Nothing holds up or spoils an access to the own local store, nor parts it: no incomplete matrix command, no stored
error, and the turn is not one that accesses granule by granule (R135). -/
def State.quiet (s : State) : Prop := s.me.mxCmds = [] ∧ s.me.lsFlip = [] ∧ s.apart = false

/-- No acquire or fence of the running firing still orders (R143, R145). -/
def State.unordered (s : State) : Prop := s.fire.elim [] (·.orders) = []

/-- The bytes o to o + n − 1 of the issuing column's local store hold the low bytes of v in t, and nothing else of s has
changed but the stored errors of the granules written. -/
structure State.StoresOwn (s : State) (o n : Nat) (v : Word) (t : State) : Prop where
  rest : t = { s with cols := t.cols, last := .issued }
  others : ∀ p, p ≠ s.cur → t.col p = s.col p
  column : t.me = { s.me with ls := t.me.ls, lsFlip := t.me.lsFlip }
  stored : ∀ k, k < n → t.rd (.ls s.cur (o + k)) = v.extractLsb' (8 * k) 8
  kept : ∀ l, (∀ k, k < n → l ≠ .ls s.cur (o + k)) → t.rd l = s.rd l

/-! ## Well-formed memories -/

/-- A memory in its one canonical form: addresses strictly rising, no byte listed that reads as an unlisted one, 0. -/
abbrev Memory.wf (m : List Host.Cell) : Bool := canonical 0 m

/-- Every memory of the package and the host's is in canonical form: GDDR 7, the host's, each column's local store and stack
slices. -/
def State.memWf (s : State) : Bool :=
  Memory.wf s.gddr && Memory.wf s.hostMem && s.cols.all (fun c => Memory.wf c.2.ls && Memory.wf c.2.stack)

/-! ## Matrix commands -/

/-- Command `op` has entered the issuing column's matrix queue (R21, R277), numbered, with its band and group; `dst` is held
pending until it completes; the band's stream positions are `sagb`; nothing else has changed. -/
structure State.Queues (s : State) (op : MOp) (dst : Option Reg) (sagb : List (Nat × Word)) (t : State) : Prop where
  rest : t = { s with cols := t.cols, nextId := s.nextId + 1, last := .issued }
  others : ∀ p, p ≠ s.cur → t.col p = s.col p
  column : t.me = { s.me with banks := t.me.banks, mq := t.me.mq }
  entry : ∃ m, t.me.mq = s.me.mq ++ [m] ∧ m.op = op ∧ m.id = s.nextId ∧ m.band = s.me.band ∧ m.begun = false ∧
    m.tepc = s.ctx.pc ∧ m.aw = s.ctx.aw ∧ m.from_ = s.me.cycle
  banks : ∀ b, b ≠ s.me.bankIx → t.me.bank b = s.me.bank b
  bank : t.bk = { s.bk with sagb := sagb, pend := s.bk.pend ++ dst.toList.map (fun r =>
    { reg := r, val := .await s.nextId, due := 0, flags := 0, ftz := 0, band := s.me.band, fresh := true }) }

/-- The running firing may use tile t, outside the trap bank, and the matrix queue has room. -/
def State.tileReady (s : State) (t : BitVec 3) : Prop :=
  s.me.inTrap = false ∧ bitN (s.fire.elim 0 (·.ent.acc)) t.toNat = true ∧ s.me.mq.length < 2

/-- Command or request `id` of band b of column p has written `w`: no register of the band waits for it any more, and those
that did hold w as a known result (R306). -/
def State.Binds (s : State) (p b id : Nat) (w : VWord) (t : State) : Prop :=
  (∀ e ∈ ((t.col p).bank b).pend, e.val ≠ .await id) ∧
  ∀ e ∈ ((s.col p).bank b).pend, e.val = .await id → ∃ g ∈ ((t.col p).bank b).pend, g.reg = e.reg ∧ g.val = .known w

/-- The firing of band b of column p has one more trap that falls due (R307). -/
def State.Defers (s : State) (p b : Nat) (x : DTrap) (t : State) : Prop :=
  ∀ f, (s.col p).firing b = some f → (t.col p).firing b = some { f with deferred := f.deferred ++ [x] }

/-! ## Engine commands -/

/-- An engine command has been queued (R305, R306): the issuing column is `c` but for register X(d), held pending until the
command completes, and the orders that hold back engine commands hold this one at its start (R145); the command number has
gone up by one; nothing else has changed. -/
structure State.Commands (s : State) (d : BitVec 5) (c : Column) (t : State) : Prop where
  rest : t = { s with cols := t.cols, nextId := s.nextId + 1, last := .issued }
  others : ∀ p, p ≠ s.cur → t.col p = s.col p
  column : t.me = { c with banks := t.me.banks, engOrders := t.me.engOrders }
  orders : t.me.engOrders = c.engOrders ++ (s.heldBy 4 []).map (fun o => (s.nextId, o))
  banks : ∀ b, b ≠ s.me.bankIx → t.me.bank b = s.me.bank b
  bank : t.bk = { s.bk with pend := s.bk.pend ++
    [{ reg := .x d.toNat, val := .await s.nextId, due := 0, flags := 0, ftz := 0, band := s.me.band, fresh := true }] }

/-- The column with one more copy-queue, KV-queue or state-store command of the issuing word. -/
def State.plusCopy (s : State) (op : COp) : Column :=
  let k : CCmd := { id := s.nextId, band := s.me.band, tmpl := none, tepc := s.ctx.pc, op := op, flow := Flow.start,
                    parked := none }
  { s.me with copyq := s.me.copyq ++ [k] }
def State.plusKv (s : State) (op : KOp) : Column :=
  let k : KCmd := { id := s.nextId, band := s.me.band, tepc := s.ctx.pc, op := op, flow := Flow.start, tab := false,
                    parked := none }
  { s.me with kvq := s.me.kvq ++ [k] }
def State.plusSs (s : State) (op : SOp) : Column :=
  let k : SCmd := { id := s.nextId, band := s.me.band, tepc := s.ctx.pc, op := op, parked := none, todo := none,
                    flow := Flow.start, res := none, reached := false }
  { s.me with ssq := s.me.ssq ++ [k] }

/-- No stored error in a local store or in GDDR 7. -/
def State.clean (s : State) : Prop := (∀ p, (s.col p).lsFlip = []) ∧ s.gdFlip = []

/-- Byte `i` of one side of a copy; the page of a global side is `u`. -/
def Acc.byteAt (c : Acc) (u : Tlb) (i : Nat) : Loc := if c.glob then u.loc (c.off + i) else .ls c.col (c.off + i)

/-- The state-store command taken up next, with the die where it acts, and the state after that choice (R330). -/
def State.ssNext (s : State) (p : Nat) : Option (SCmd × Nat) × State :=
  let l := s.ssReady p
  ((l[(s.choose l.length).1]?), (s.choose l.length).2)

/-! ## Completion records -/

/-- The record of packet `seq` of queue `q` has fallen due on completion queue `c` with its status (R415, R425, R427): it is
written and its status kept, or it waits; it is written where the ring has room and no record waited in `s`. -/
def State.Records (s : State) (c q seq status : Nat) (t : State) : Prop :=
  let kept := (t.lqOf q).done.getLast? = some (seq, status)
  (kept ∨ ∃ r ∈ (t.rqOf c).waiting, fieldN r 21 16 = q ∧ fieldN r 39 24 = seq ∧ fieldN r 47 40 = status) ∧
  ((s.rqOf c).waiting = [] → (s.rqOf c).full = false → kept)

/-! ## What an instruction may change -/

/-- Nothing but the issuing column differs; there, only its registers in flight and the cycles at which its units are free;
the new results name registers of `rs` only; every byte of memory reads as before (R250). -/
structure State.RegisterFrame (s : State) (rs : List Reg) (t : State) : Prop where
  rest : t = { s with cols := t.cols, last := t.last }
  others : ∀ p, p ≠ s.cur → t.col p = s.col p
  column : t.me = { s.me with banks := t.me.banks, busy := t.me.busy }
  banks : ∀ b, b ≠ s.me.bankIx → t.me.bank b = s.me.bank b
  bank : t.bk = { s.bk with pend := t.bk.pend }
  results : ∃ es : List Pend, t.bk.pend = s.bk.pend ++ es ∧ ∀ e ∈ es, e.reg ∈ rs
  memory : ∀ l, t.rd l = s.rd l

/-- The instructions that only compute register results: no memory, no engine, no control transfer. -/
def registerOnly : Instr → Bool
  | .nop | .sysrd _ _ | .acvtOff _ _ | .acvtG _ _ | .acvtL _ _ | .acvtC _ _ | .acvtLc _ _ | .acvtCl _ _ | .atest _ _
  | .peek _ _ _ | .chst _ _ | .bellw _ _ | .bellt _ _ | .add _ _ _ | .sub _ _ _
  | .and _ _ _ | .or _ _ _ | .xor _ _ _ | .shl _ _ _ | .shr _ _ _ | .sar _ _ _ | .slt _ _ _ | .sltu _ _ _ | .min _ _ _
  | .max _ _ _ | .minu _ _ _ | .maxu _ _ _ | .clz _ _ | .popc _ _ | .andn _ _ _ | .addi _ _ _ | .andi _ _ _
  | .ori _ _ _ | .xori _ _ _ | .shli _ _ _ | .shri _ _ _ | .sari _ _ _ | .slti _ _ _ | .sltiu _ _ _ | .mul _ _ _
  | .mulhs _ _ _ | .mulhu _ _ _ | .mulhm _ _ _ | .mul32s _ _ _ | .divs _ _ _ | .divu _ _ _ | .rems _ _ _ | .remu _ _ _
  | .li _ _ | .lis _ _ | .fadd _ _ _ _ | .fsub _ _ _ _ | .fmul _ _ _ _ | .fdiv _ _ _ _ | .fsqrt _ _ _ | .fmin _ _ _
  | .fmax _ _ _ | .fabs _ _ | .fneg _ _ | .fmadd _ _ _ _ | .fmsub _ _ _ _ | .fnmadd _ _ _ _ | .fnmsub _ _ _ _
  | .fcmp _ _ _ _ | .fcvtF32L _ _ _ _ | .fcvtF32Lu _ _ _ _ | .fcvtLF32 _ _ _ | .fcvtLuF32 _ _ _ | .fcvtWF32 _ _ _
  | .fcvtBf16F32 _ _ _ _ | .fcvtF32Bf16 _ _ | .vadd _ _ _ _ | .vsub _ _ _ _ | .vadds _ _ _ _ | .vsubs _ _ _ _
  | .vmul _ _ _ _ | .vmulh _ _ _ _ | .vmin _ _ _ _ | .vmax _ _ _ _ | .vand _ _ _ _ | .vor _ _ _ _ | .vxor _ _ _ _
  | .vshl _ _ _ _ | .vshr _ _ _ _ | .vsar _ _ _ _ | .vabs _ _ _ | .vfadd _ _ _ _ | .vfsub _ _ _ _ | .vfmul _ _ _ _
  | .vfdiv _ _ _ _ | .vfsqrt _ _ _ | .vfmin _ _ _ _ | .vfmax _ _ _ _ | .vfabs _ _ _ | .vfneg _ _ _ | .vfmadd _ _ _ _
  | .vfmsub _ _ _ _ | .vfnmadd _ _ _ _ | .vfnmsub _ _ _ _ | .vcmp _ _ _ _ _ | .qand _ _ _ | .qor _ _ _ | .qxor _ _ _
  | .qandn _ _ _ | .qsetx _ _ | .qgetx _ _ | .vsel _ _ _ _ _ | .vbcastX _ _ _ | .vbcastLane _ _ _ _ | .vperm _ _ _ _
  | .vexp2 _ _ _ | .vrcp _ _ _ | .vrsq _ _ _ | .vredAdd _ _ _ _ | .vredMax _ _ _ _ | .vredMin _ _ _ _
  | .vredMaxi _ _ _ _ | .vxtr _ _ _ _ | .vpopq _ _ _ | .vsumkAcc _ _ _ | .vsumkScale _ _ _ | .vsumkFold _ _
  | .vsumkFin _ _ | .vscan _ _ _ _ _ _ | .vhad _ _ _ _ | .vcvt _ _ _ _ _ _ => true
  | _ => false

/-- The order of FP32 codes that are no NaN, −0 below +0 (R260): the first is not above the second. -/
def fpMin (x y : BitVec 32) : Bool :=
  let key (w : BitVec 32) : Int := if w.getLsbD 31 then -((w.toNat % 2 ^ 31 : Nat) : Int) - 1 else (w.toNat % 2 ^ 31 : Nat)
  decide (key x ≤ key y)

end Sys2Proof.Machine
end

