-- ==== Sys2Proof/Certificates/Slice0/Obligations.lean ====
section
/-!
DEFINITION. The statements for the provers: what each instruction and each step of the package does, where it completes,
what it leaves alone, and what every step keeps. Registers written by an issued word are stated as the word's result in
flight; RegisterWriteback says when and how it arrives.
-/
open Sys2Proof Sys2Proof.Machine

/-! ## Encoding -/

/-- For every encoded, well-formed instruction and every header of its class, decoding its word gives it back with every
operand at every value the encoding admits (Tables 7-1 to 7-4). -/
def Obligations.DecodeOfEncode : Prop :=
  ∀ (h : Header) (i : Instr), i.encoded = true → i.wf = true → h.fits i = true → decodeWord (encode h i) = .ok (h, i)

/-- Every word that decodes is the encoding of what it decodes to, which is an encoded, well-formed instruction of the
word's class: no bit of a legal word is ignored. -/
def Obligations.EncodeOfDecode : Prop :=
  ∀ (w : BitVec 32) (h : Header) (i : Instr), decodeWord w = .ok (h, i) →
    encode h i = w ∧ i.encoded = true ∧ i.wf = true ∧ h.fits i = true

/-- The opcodes Tables 7-3 and 7-4 leave unassigned, the only ones refused with reason 0 (R199 to R201): C class 0x07,
0x2C to 0x2F, 0x3A to 0x3F and 0x4E to 0x7F; A class 0x0E, 0x0F, 0x14 to 0x1F, 0x2D to 0x2F, 0x37 and 0x3A to 0x7F. -/
def Obligations.UnassignedOpcodes : Prop :=
  ∀ w : BitVec 32,
    let op := (w.extractLsb' 22 7).toNat
    (decodeWord w = .error 0 ↔
      (if w.getLsbD 31 = false then
        op = 0x07 ∨ (0x2C ≤ op ∧ op ≤ 0x2F) ∨ (0x3A ≤ op ∧ op ≤ 0x3F) ∨ 0x4E ≤ op
      else op = 0x0E ∨ op = 0x0F ∨ (0x14 ≤ op ∧ op ≤ 0x1F) ∨ (0x2D ≤ op ∧ op ≤ 0x2F) ∨ op = 0x37 ∨ 0x3A ≤ op))

/-- Words the manual itself prints (Tables 12-3, 12-8, 13-3, 13-11, 14-2, 14-10) decode to the instructions beside them. -/
def Obligations.SpecWordsDecode : Prop :=
  decodeWord 0x4214D008#32 = .ok ({ code := 1, w := false }, .beq 10 13 8) ∧
  decodeWord 0x0A98C002#32 = .ok ({ code := 0, w := false }, .acvtL 12 12) ∧
  decodeWord 0xC04E0020#32 = .ok ({ code := 3, w := false }, .addi 7 0 32) ∧
  decodeWord 0x8C42CC00#32 = .ok ({ code := 2, w := false }, .mma 0 11 6 0) ∧
  decodeWord 0xAD430E00#32 = .ok ({ code := 2, w := true }, .mst 0 12 7 0 0 0) ∧
  decodeWord 0x4C480001#32 = .ok ({ code := 1, w := false }, .send 4 1) ∧
  decodeWord 0x4DDC568D#32 = .ok ({ code := 1, w := false }, .pbarr 14 5 13 13) ∧
  decodeWord 0x4E605883#32 = .ok ({ code := 1, w := false }, .mwait 16 5 17 0 0 3) ∧
  decodeWord 0x4080F041#32 = .ok ({ code := 1, w := false }, .trap 15 1 1) ∧
  decodeWord 0x522F6900#32 = .ok ({ code := 1, w := false }, .ssld 23 22 18) ∧
  decodeWord 0x44010025#32 = .ok ({ code := 1, w := false }, .loop 16 37) ∧
  decodeWord 0x08513060#32 = .ok ({ code := 0, w := false }, .vld 8 19 0 6 0) ∧
  decodeWord 0xC8A01460#32 = .ok ({ code := 3, w := false }, .vfmadd 16 1 8 6) ∧
  decodeWord 0x50CB2582#32 = .ok ({ code := 1, w := false }, .kvapp 5 18 11 2) ∧
  decodeWord 0x418A0007#32 = .ok ({ code := 1, w := false }, .syswr 5 7) ∧
  decodeWord 0x8A4CC001#32 = .ok ({ code := 2, w := false }, .vsumkScale 6 12 0) ∧
  decodeWord 0x8E506288#32 = .ok ({ code := 2, w := false }, .seedfit 8 6 5 8) ∧
  decodeWord 0x8CA29603#32 = .ok ({ code := 2, w := false }, .mmag 4 10 11 3)

/-! ## Scalar instructions: results and completion -/

/-- Integer ALU family (R255, R256, R258, Table 9-2): with the registers free, each issues and its result, modulo 2^64, is
written one cycle later. CLZ gives the number of leading zeros, 64 for 0; POPC the number of set bits. The immediate forms
take imm12 sign-extended, shifts imm[5:0]; LI gives imm17 sign-extended, LIS shifts the old value up by 17 bits and inserts
imm17. -/
def Obligations.ScalarAlu : Prop :=
  ((∀ (s : State) (d a b : BitVec 5), s.ready [.x a.toNat, .x b.toNat, .x d.toNat] = true →
      exec (.add d a b) s = .next (s.deliversX d (s.X a + s.X b) 1) ∧
      exec (.sub d a b) s = .next (s.deliversX d (s.X a - s.X b) 1) ∧
      exec (.and d a b) s = .next (s.deliversX d (s.X a &&& s.X b) 1) ∧
      exec (.or d a b) s = .next (s.deliversX d (s.X a ||| s.X b) 1) ∧
      exec (.xor d a b) s = .next (s.deliversX d (s.X a ^^^ s.X b) 1) ∧
      exec (.andn d a b) s = .next (s.deliversX d (s.X a &&& ~~~ s.X b) 1) ∧
      exec (.shl d a b) s = .next (s.deliversX d (s.X a <<< ((s.X b).toNat % 64)) 1) ∧
      exec (.shr d a b) s = .next (s.deliversX d (s.X a >>> ((s.X b).toNat % 64)) 1) ∧
      exec (.sar d a b) s = .next (s.deliversX d ((s.X a).sshiftRight ((s.X b).toNat % 64)) 1) ∧
      exec (.slt d a b) s = .next (s.deliversX d (if (s.X a).toInt < (s.X b).toInt then 1 else 0) 1) ∧
      exec (.sltu d a b) s = .next (s.deliversX d (if (s.X a).toNat < (s.X b).toNat then 1 else 0) 1) ∧
      exec (.min d a b) s = .next (s.deliversX d (BitVec.ofInt 64 (min (s.X a).toInt (s.X b).toInt)) 1) ∧
      exec (.max d a b) s = .next (s.deliversX d (BitVec.ofInt 64 (max (s.X a).toInt (s.X b).toInt)) 1) ∧
      exec (.minu d a b) s = .next (s.deliversX d (BitVec.ofNat 64 (min (s.X a).toNat (s.X b).toNat)) 1) ∧
      exec (.maxu d a b) s = .next (s.deliversX d (BitVec.ofNat 64 (max (s.X a).toNat (s.X b).toNat)) 1)) ∧
   (∀ (s : State) (d a : BitVec 5), s.ready [.x a.toNat, .x d.toNat] = true →
      (∃ n : Nat, exec (.clz d a) s = .next (s.deliversX d (BitVec.ofNat 64 n) 1) ∧ n ≤ 64 ∧
        (s.X a).toNat < 2 ^ (64 - n) ∧ (n < 64 → 2 ^ (63 - n) ≤ (s.X a).toNat)) ∧
      exec (.popc d a) s =
        .next (s.deliversX d (BitVec.ofNat 64 ((List.range 64).filter (fun i => (s.X a).getLsbD i)).length) 1))) ∧
  ((∀ (s : State) (d a : BitVec 5) (i : BitVec 12) (n : BitVec 6), s.ready [.x a.toNat, .x d.toNat] = true →
     exec (.addi d a i) s = .next (s.deliversX d (s.X a + i.signExtend 64) 1) ∧
     exec (.andi d a i) s = .next (s.deliversX d (s.X a &&& i.signExtend 64) 1) ∧
     exec (.ori d a i) s = .next (s.deliversX d (s.X a ||| i.signExtend 64) 1) ∧
     exec (.xori d a i) s = .next (s.deliversX d (s.X a ^^^ i.signExtend 64) 1) ∧
     exec (.shli d a n) s = .next (s.deliversX d (s.X a <<< n.toNat) 1) ∧
     exec (.shri d a n) s = .next (s.deliversX d (s.X a >>> n.toNat) 1) ∧
     exec (.sari d a n) s = .next (s.deliversX d ((s.X a).sshiftRight n.toNat) 1) ∧
     exec (.slti d a i) s = .next (s.deliversX d (if (s.X a).toInt < i.toInt then 1 else 0) 1) ∧
     exec (.sltiu d a i) s =
       .next (s.deliversX d (if (s.X a).toNat < (i.signExtend 64).toNat then 1 else 0) 1)) ∧
   (∀ (s : State) (d : BitVec 5) (i : BitVec 17), s.ready [.x d.toNat] = true →
     exec (.li d i) s = .next (s.deliversX d (i.signExtend 64) 1) ∧
     exec (.lis d i) s = .next (s.deliversX d (BitVec.ofNat 64 ((s.X d).toNat * 2 ^ 17 + i.toNat)) 1)))

/-- MUL and DIV families (R257, Table 9-3): quotients truncate toward zero and saturate, remainders take the dividend's sign
and are 0 for a zero divisor; a division also needs its unit free and keeps it for 20 cycles (Table 16-1). -/
def Obligations.ScalarMulDiv : Prop :=
  ∀ (s : State) (d a b : BitVec 5), s.ready [.x a.toNat, .x b.toNat, .x d.toNat] = true →
    (exec (.mul d a b) s = .next (s.deliversX d (BitVec.ofInt 64 ((s.X a).toInt * (s.X b).toInt)) 3) ∧
     exec (.mulhs d a b) s = .next (s.deliversX d (BitVec.ofInt 64 ((s.X a).toInt * (s.X b).toInt / 2 ^ 64)) 3) ∧
     exec (.mulhu d a b) s = .next (s.deliversX d (BitVec.ofNat 64 ((s.X a).toNat * (s.X b).toNat / 2 ^ 64)) 3) ∧
     exec (.mulhm d a b) s =
       .next (s.deliversX d (BitVec.ofInt 64 ((s.X a).toInt * ((s.X b).toNat : Int) / 2 ^ 64)) 3) ∧
     exec (.mul32s d a b) s =
       .next (s.deliversX d (BitVec.ofInt 64 (((s.X a).setWidth 32).toInt * ((s.X b).setWidth 32).toInt)) 3)) ∧
    (s.unitFree unitDiv = true →
      let t := s.occupy unitDiv 20
      exec (.divs d a b) s = .next (t.deliversX d
        (if s.X b = 0 then (if 0 < (s.X a).toInt then BitVec.ofNat 64 (2 ^ 63 - 1)
            else if (s.X a).toInt < 0 then BitVec.ofNat 64 (2 ^ 63) else 0)
          else if (s.X a).toInt = -2 ^ 63 ∧ (s.X b).toInt = -1 then BitVec.ofNat 64 (2 ^ 63 - 1)
          else BitVec.ofInt 64 ((s.X a).toInt.tdiv (s.X b).toInt)) 20) ∧
      exec (.divu d a b) s = .next (t.deliversX d
        (if s.X b = 0 then (if s.X a = 0 then 0 else BitVec.allOnes 64)
          else BitVec.ofNat 64 ((s.X a).toNat / (s.X b).toNat)) 20) ∧
      exec (.rems d a b) s = .next (t.deliversX d
        (if s.X b = 0 then 0 else BitVec.ofInt 64 ((s.X a).toInt.tmod (s.X b).toInt)) 20) ∧
      exec (.remu d a b) s = .next (t.deliversX d
        (if s.X b = 0 then 0 else BitVec.ofNat 64 ((s.X a).toNat % (s.X b).toNat)) 20))

/-- FP32 arithmetic and FMA (R259, R261): one rounding of the exact result in the word's mode, with the flags of the
operation and of the rounding; FDIV and FSQRT also need their unit free and keep it for 12 cycles (Table 16-1). MIN, MAX, ABS
and NEG of FP32 registers never round and set no flag (R260): a NaN gives the canonical NaN, ABS clears the sign bit, NEG
inverts it, MIN and MAX give one of the operands, −0 below +0. -/
def Obligations.ScalarFloat : Prop :=
  (∀ (s : State) (d a b : BitVec 5) (m : BitVec 3),
     let put := fun (u : State) (e : Val × Nat) (lat : Nat) =>
       Host.Outcome.next (u.deliversF d (FP32.round e.1 m.toNat) e.2 lat)
     let x := fpX (s.X a)
     let y := fpX (s.X b)
     let z := fpX (s.X d)
     (s.ready [.x a.toNat, .x b.toNat, .x d.toNat] = true →
       exec (.fadd d a b m) s = put s (x.add m.toNat y) 4 ∧
       exec (.fsub d a b m) s = put s (x.add m.toNat y.neg) 4 ∧
       exec (.fmul d a b m) s = put s (x.mul y) 4 ∧
       (s.unitFree unitFdiv = true → exec (.fdiv d a b m) s = put (s.occupy unitFdiv 12) (x.div y) 12) ∧
       exec (.fmadd d a b m) s = put s (fma false false m.toNat x y z) 4 ∧
       exec (.fmsub d a b m) s = put s (fma false true m.toNat x y z) 4 ∧
       exec (.fnmadd d a b m) s = put s (fma true false m.toNat x y z) 4 ∧
       exec (.fnmsub d a b m) s = put s (fma true true m.toNat x y z) 4) ∧
     (s.ready [.x a.toNat, .x d.toNat] = true → s.unitFree unitFdiv = true →
       exec (.fsqrt d a m) s = put (s.occupy unitFdiv 12) x.sqrt 12)) ∧
  (∀ (s : State) (d a b : BitVec 5),
     let x := (s.X a).setWidth 32
     let y := (s.X b).setWidth 32
     let nan := fun (w : BitVec 32) => 0x7F800000 < w.toNat % 2 ^ 31
     let put := fun (w : BitVec 32) => Host.Outcome.next (s.deliversX d (w.setWidth 64) 4)
     (s.ready [.x a.toNat, .x d.toNat] = true →
       exec (.fabs d a) s = (if nan x then put 0x7FC00000 else put (x &&& 0x7FFFFFFF)) ∧
       exec (.fneg d a) s = (if nan x then put 0x7FC00000 else put (x ^^^ 0x80000000))) ∧
     (s.ready [.x a.toNat, .x b.toNat, .x d.toNat] = true →
       (nan x ∨ nan y → exec (.fmin d a b) s = put 0x7FC00000 ∧ exec (.fmax d a b) s = put 0x7FC00000) ∧
       (¬nan x → ¬nan y →
         exec (.fmin d a b) s = (if fpMin x y then put x else put y) ∧
         exec (.fmax d a b) s = (if fpMin x y then put y else put x))))

/-- FCMP and FCVT (R262, R263): a comparison is 0 or 1; a conversion rounds once in its mode, saturates where .sat says so,
and integer results are those of round_int for the type. -/
def Obligations.ScalarCompareConvert : Prop :=
  (∀ (s : State) (d a b : BitVec 5) (c : BitVec 3), s.ready [.x a.toNat, .x b.toNat, .x d.toNat] = true →
    exec (.fcmp d a b c) s =
      .next (s.deliversX d (if (fpX (s.X a)).holds c.toNat (fpX (s.X b)) then 1 else 0) 2)) ∧
  (∀ (s : State) (d a : BitVec 5) (m : BitVec 3) (q : BitVec 1), s.ready [.x a.toNat, .x d.toNat] = true →
    let x := s.X a
    let flt := fun (r : Rnd) => Host.Outcome.next (s.deliversF d r 0 3)
    let int := fun (r : RndI) => Host.Outcome.next (s.deliversX d (BitVec.ofInt 64 r.val) 3 r.fl)
    exec (.fcvtF32L d a m q) s = flt (FP32.cvt (.ofInt x.toInt) m.toNat (q == 1#1)) ∧
    exec (.fcvtF32Lu d a m q) s = flt (FP32.cvt (.ofInt x.toNat) m.toNat (q == 1#1)) ∧
    exec (.fcvtLF32 d a m) s = int (roundInt (fpX x) (-(2 ^ 63)) (2 ^ 63 - 1) m.toNat) ∧
    exec (.fcvtLuF32 d a m) s = int (roundInt (fpX x) 0 (2 ^ 64 - 1) m.toNat) ∧
    exec (.fcvtWF32 d a m) s = int (roundInt (fpX x) (-(2 ^ 31)) (2 ^ 31 - 1) m.toNat) ∧
    exec (.fcvtBf16F32 d a m q) s = flt (BF16.cvt (fpX x) m.toNat (q == 1#1)) ∧
    exec (.fcvtF32Bf16 d a) s = .next (s.deliversX d (BitVec.ofNat 64
      (if 0x7F80 < x.toNat % 2 ^ 15 then 0x7FC00000 else x.toNat % 2 ^ 16 * 2 ^ 16)) 3))

/-! ## Vector instructions: results and completion -/

/-- Vector integer family (R264, Table 9-6): lane by lane on sint(w) values, results modulo 2^w, with the latencies of
Table 16-1; the bitwise operations act on the whole register whatever the type. -/
def Obligations.VectorInteger : Prop :=
  ∀ (s : State) (d a b : BitVec 5) (t : BitVec 3),
    let w := laneW t.toNat
    let A := slanes t.toNat (s.V a)
    let B := slanes t.toNat (s.V b)
    let put := fun (lat : Nat) (f : Int → Int → Int) =>
      Host.Outcome.next (s.deliversV d t.toNat (zipW (fun x y => um w (f x y)) A B) lat)
    (s.ready [.v a.toNat, .v b.toNat, .v d.toNat] = true →
      exec (.vadd d a b t) s = put 2 (fun x y => x + y) ∧
      exec (.vsub d a b t) s = put 2 (fun x y => x - y) ∧
      exec (.vadds d a b t) s = put 2 (fun x y => clampI (-(2 ^ (w - 1) : Nat)) ((2 ^ (w - 1) : Nat) - 1) (x + y)) ∧
      exec (.vsubs d a b t) s = put 2 (fun x y => clampI (-(2 ^ (w - 1) : Nat)) ((2 ^ (w - 1) : Nat) - 1) (x - y)) ∧
      exec (.vmul d a b t) s = put 4 (fun x y => x * y) ∧
      exec (.vmulh d a b t) s = put 4 (fun x y => x * y / (2 ^ w : Nat)) ∧
      exec (.vmin d a b t) s = put 2 (fun x y => min x y) ∧
      exec (.vmax d a b t) s = put 2 (fun x y => max x y) ∧
      exec (.vshl d a b t) s = put 2 (fun x y => x * (2 ^ (y % w).toNat : Nat)) ∧
      exec (.vshr d a b t) s = put 2 (fun x y => (um w x / 2 ^ (y % w).toNat : Nat)) ∧
      exec (.vsar d a b t) s = put 2 (fun x y => x / (2 ^ (y % w).toNat : Nat)) ∧
      exec (.vand d a b t) s = .next (s.delivers (.v d.toNat) (s.V a &&& s.V b) 2) ∧
      exec (.vor d a b t) s = .next (s.delivers (.v d.toNat) (s.V a ||| s.V b) 2) ∧
      exec (.vxor d a b t) s = .next (s.delivers (.v d.toNat) (s.V a ^^^ s.V b) 2)) ∧
    (s.ready [.v a.toNat, .v d.toNat] = true →
      exec (.vabs d a t) s =
        .next (s.deliversV d t.toNat (A.map (fun x => um w (min (x.natAbs : Int) ((2 ^ (w - 1) : Nat) - 1)))) 2))

/-- Vector floating family, VFMA and the function family (R265 to R267): each lane's exact result rounded once to nearest
even into the lane type; division and square root also need their unit free and keep it for 8 cycles (Table 16-1). -/
def Obligations.VectorFloat : Prop :=
  ∀ (s : State) (d a b : BitVec 5) (t : BitVec 3),
    let F := laneFmt t.toNat
    let A := vlanes t.toNat (s.V a)
    let B := vlanes t.toNat (s.V b)
    let D := vlanes t.toNat (s.V d)
    let two := fun (u : State) (lat : Nat) (f : Val → Val → Val × Nat) =>
      Host.Outcome.next (u.deliversR d t.toNat (zipW (fun x y => F.fin (f x y) 0) A B) lat)
    let three := fun (p c : Bool) =>
      Host.Outcome.next (s.deliversR d t.toNat
        (zipW (fun xy z => F.fin (fma p c 0 xy.1 xy.2 z) 0) (zipW (fun x y => (x, y)) A B) D) 8)
    let one := fun (u : State) (lat : Nat) (f : Val → Rnd) => Host.Outcome.next (u.deliversR d t.toNat (A.map f) lat)
    (s.ready [.v a.toNat, .v b.toNat, .v d.toNat] = true →
      exec (.vfadd d a b t) s = two s 8 (Val.add 0) ∧
      exec (.vfsub d a b t) s = two s 8 (fun x y => Val.add 0 x y.neg) ∧
      exec (.vfmul d a b t) s = two s 8 Val.mul ∧
      (s.unitFree unitVfdiv = true → exec (.vfdiv d a b t) s = two (s.occupy unitVfdiv 8) 16 Val.div) ∧
      exec (.vfmin d a b t) s = two s 8 (fun x y => (x.min2 y, 0)) ∧
      exec (.vfmax d a b t) s = two s 8 (fun x y => (x.max2 y, 0)) ∧
      exec (.vfmadd d a b t) s = three false false ∧
      exec (.vfmsub d a b t) s = three false true ∧
      exec (.vfnmadd d a b t) s = three true false ∧
      exec (.vfnmsub d a b t) s = three true true) ∧
    (s.ready [.v a.toNat, .v d.toNat] = true →
      (s.unitFree unitVfdiv = true →
        exec (.vfsqrt d a t) s = one (s.occupy unitVfdiv 8) 16 (fun x => F.fin x.sqrt 0)) ∧
      exec (.vfabs d a t) s = one s 8 (quietLane t ·.abs) ∧
      exec (.vfneg d a t) s = one s 8 (quietLane t ·.neg) ∧
      exec (.vexp2 d a t) s = one s 10 F.exp2 ∧
      exec (.vrcp d a t) s = one s 10 (fun x => fnLane F x.recip) ∧
      exec (.vrsq d a t) s = one s 10 (fun x => fnLane F x.rsqrt))

/-- VHAD and VCVT (R268, R276): with j = i XOR 2^k, lane i of VHAD takes a(i) + a(j) where bit k of i is clear and
a(j) − a(i) where it is set, saturated or rounded to nearest even; VCVT converts each lane into the destination format and
packs the results from bit 0. -/
def Obligations.HadamardConvert : Prop :=
  ∀ (s : State) (d a k : BitVec 5) (t m : BitVec 3) (q : BitVec 1), s.ready [.v a.toNat, .v d.toNat] = true →
    let w := laneW t.toNat
    let I := fun i => (slanes t.toNat (s.V a))[i]?.getD 0
    let F := fun i => (vlanes t.toNat (s.V a))[i]?.getD .nan
    let j := fun i => i ^^^ 2 ^ k.toNat
    (k.toNat < laneLog t → laneFp t.toNat = false → exec (.vhad d a k t) s =
      .next (s.deliversV d t.toNat ((List.range (laneN t.toNat)).map (fun i =>
        um w (clampI (-(2 ^ (w - 1) : Nat)) ((2 ^ (w - 1) : Nat) - 1)
          (if i.testBit k.toNat then I (j i) - I i else I i + I (j i))))) 2)) ∧
    (laneFp t.toNat = true → exec (.vhad d a k t) s =
      .next (s.deliversR d t.toNat ((List.range (laneN t.toNat)).map (fun i => (laneFmt t.toNat).fin
        (if i.testBit k.toNat then Val.add 0 (F (j i)) (F i).neg else Val.add 0 (F i) (F (j i))) 0)) 2)) ∧
    exec (.vcvt d a k t q m) s =
      let cb := cvtBits k.toNat
      let r := ((vlanes t.toNat (s.V a)).take (min (laneN t.toNat) (512 / cb))).map
        (cvtElem k.toNat m.toNat (q == 1#1) (laneFp t.toNat))
      .next (s.delivers (.v d.toNat) (pack cb (r.map (·.code))) 4 (flagsOf r) (ftzOf r))

/-- Comparisons, mask operations, selection and movement (R269 to R272): masks have zeros above the lane count, q0 reads all
ones, lanes move unchanged. -/
def Obligations.VectorMasksMoves : Prop :=
  (∀ (s : State) (q : BitVec 3) (a b : BitVec 5) (t c : BitVec 3), s.ready [.v a.toNat, .v b.toNat, .q q.toNat] = true →
    exec (.vcmp q a b t c) s = .next (s.delivers (.q q.toNat) (BitVec.ofNat 512 (bitsNat
      (zipW (vcmpLane t.toNat c.toNat) (lanesOf (laneW t.toNat) (s.V a)) (lanesOf (laneW t.toNat) (s.V b))))) 2)) ∧
  (∀ (s : State) (q r p : BitVec 3), s.ready [.q r.toNat, .q p.toNat, .q q.toNat] = true →
    exec (.qand q r p) s = .next (s.delivers (.q q.toNat) ((s.Q r &&& s.Q p).setWidth 512) 1) ∧
    exec (.qor q r p) s = .next (s.delivers (.q q.toNat) ((s.Q r ||| s.Q p).setWidth 512) 1) ∧
    exec (.qxor q r p) s = .next (s.delivers (.q q.toNat) ((s.Q r ^^^ s.Q p).setWidth 512) 1) ∧
    exec (.qandn q r p) s = .next (s.delivers (.q q.toNat) ((s.Q r &&& ~~~ s.Q p).setWidth 512) 1)) ∧
  (∀ (s : State) (q : BitVec 3) (a : BitVec 5), s.ready [.x a.toNat, .q q.toNat] = true →
    exec (.qsetx q a) s = .next (s.delivers (.q q.toNat) ((s.X a).setWidth 512) 1)) ∧
  (∀ (s : State) (d : BitVec 5) (r : BitVec 3), s.ready [.q r.toNat, .x d.toNat] = true →
    exec (.qgetx d r) s = .next (s.deliversX d (s.Q r) 1)) ∧
  (∀ (s : State) (d a b : BitVec 5) (t q : BitVec 3),
    let A := lanesOf (laneW t.toNat) (s.V a)
    let B := lanesOf (laneW t.toNat) (s.V b)
    let n := laneN t.toNat
    (s.ready [.v a.toNat, .v b.toNat, .q q.toNat, .v d.toNat] = true →
      exec (.vsel d a b t q) s = .next (s.deliversV d t.toNat ((List.range n).map (fun i =>
        if (s.Q q).getLsbD i then A[i]?.getD 0 else B[i]?.getD 0)) 1)) ∧
    (s.ready [.x a.toNat, .v d.toNat] = true →
      exec (.vbcastX d a t) s =
        .next (s.deliversV d t.toNat (List.replicate n ((s.X a).toNat % 2 ^ laneW t.toNat)) 2)) ∧
    (s.ready [.v a.toNat, .x b.toNat, .v d.toNat] = true →
      exec (.vbcastLane d a b t) s =
        .next (s.deliversV d t.toNat (List.replicate n (A[(s.X b).toNat % n]?.getD 0)) 2)) ∧
    (s.ready [.v a.toNat, .v b.toNat, .v d.toNat] = true →
      exec (.vperm d a b t) s = .next (s.deliversV d t.toNat (B.map (fun i => A[i % n]?.getD 0)) 3)))

/-- Reductions into an x register (R273, Table 9-8): integer sums and extremes over the lanes whose mask bit is set, with the
value the table gives when none is, sign-extended; floating sums are left folds rounded after each addition. -/
def Obligations.VectorReductions : Prop :=
  (∀ (s : State) (d a b : BitVec 5) (q t : BitVec 3),
    let w := laneW t.toNat
    let I := (active (s.Q q) (slanes t.toNat (s.V a))).map (·.2)
    let R := (active (s.Q q) (vlanes t.toNat (s.V a))).map (·.2)
    (s.ready [.v a.toNat, .q q.toNat, .x d.toNat] = true →
      (laneFp t.toNat = false →
        exec (.vredAdd d a q t) s = .next (s.deliversX d (BitVec.ofInt 64 I.sum) 6) ∧
        exec (.vredMax d a q t) s =
          .next (s.deliversX d (BitVec.ofInt 64 (I.foldl max (-(2 ^ (w - 1) : Nat)))) 6) ∧
        exec (.vredMin d a q t) s =
          .next (s.deliversX d (BitVec.ofInt 64 (I.foldl min ((2 ^ (w - 1) : Nat) - 1))) 6)) ∧
      (laneFp t.toNat = true →
        exec (.vredAdd d a q t) s = .next (match R with
          | [] => s.deliversX d 0 6
          | x :: r => let z := foldF32 r (FP32.round x 0); s.deliversX d (w64 z.code) 6 z.fl z.ftz) ∧
        exec (.vredMax d a q t) s = .next (s.deliversX d (w64 (FP32.round (extreme true R) 0).code) 6) ∧
        exec (.vredMin d a q t) s = .next (s.deliversX d (w64 (FP32.round (extreme false R) 0).code) 6)) ∧
      exec (.vredMaxi d a q t) s = .next (s.deliversX d (maxIndex (active (s.Q q) (vlanes t.toNat (s.V a)))) 6)) ∧
    (s.ready [.v a.toNat, .x b.toNat, .x d.toNat] = true → laneFp t.toNat = false →
      exec (.vxtr d a b t) s = .next (s.deliversX d
        (BitVec.ofInt 64 ((slanes t.toNat (s.V a))[(s.X b).toNat % laneN t.toNat]?.getD 0)) 6)) ∧
    (s.ready [.v a.toNat, .x b.toNat, .x d.toNat] = true → laneFp t.toNat = true →
      exec (.vxtr d a b t) s = .next (s.deliversX d (w64 (FP32.round ((laneFmt t.toNat).decode
        ((lanesOf w (s.V a))[(s.X b).toNat % laneN t.toNat]?.getD 0)) 0).code) 6)) ∧
    (s.ready [.q q.toNat, .x d.toNat] = true →
      exec (.vpopq d q t) s = .next (s.deliversX d (BitVec.ofNat 64
        ((List.range (laneN t.toNat)).filter (fun i => (s.Q q).getLsbD i)).length) 6)))

/-- Compensated sums and scans (R274, R275): the pair V(d), V(d + 1) takes the lanes of one step of R187, of a rescaling or
of the finish, lanes whose mask bit is clear keeping their bits; the fold needs its unit free and leaves the total in lane
0; a scan takes 6 cycles. -/
def Obligations.SumsScans : Prop :=
  (∀ (s : State) (d a : BitVec 5) (q : BitVec 3),
    let X := lanesOf 32 (s.V a)
    let S := lanesOf 32 (s.V d)
    let C := lanesOf 32 (s.bk.readV (d.toNat + 1))
    let pair := fun (u : State) (l : List Pair) (lat : Nat) =>
      Host.Outcome.next ((u.result (.v d.toNat) (pack 32 (l.map (·.s))) lat (l.foldl (fun z p => z ||| p.fl) 0)
        (l.foldl (fun z p => z + p.ftz) 0)).delivers (.v (d.toNat + 1)) (pack 32 (l.map (·.c))) lat)
    (s.ready [.v a.toNat, .q q.toNat, .v d.toNat, .v (d.toNat + 1)] = true →
      exec (.vsumkAcc d a q) s = pair s (sumkLanes sumkAcc (s.Q q) X S C) 8 ∧
      exec (.vsumkScale d a q) s = pair s (sumkLanes sumkScale (s.Q q) X S C) 8) ∧
    (s.ready [.q q.toNat, .v d.toNat, .v (d.toNat + 1)] = true →
      exec (.vsumkFin d q) s = pair s (sumkLanes sumkFin (s.Q q) S S C) 8 ∧
      (s.unitFree unitFold = true →
        let p := sumkFold ((active (s.Q q) (zipW (fun x y => (x, y)) S C)).map (·.2)) true { s := 0, c := 0, fl := 0, ftz := 0 }
        let e := sumkFin 0 p.s p.c
        exec (.vsumkFold d q) s = pair (s.occupy unitFold 4)
          [{ s := e.s, c := 0, fl := p.fl ||| e.fl, ftz := p.ftz + e.ftz }] 20))) ∧
  (∀ (s : State) (d a : BitVec 5) (q t : BitVec 3) (c : BitVec 1) (o : BitVec 2),
    s.ready [.v a.toNat, .q q.toNat, .v d.toNat] = true →
    let l := vlanes t.toNat (s.V a)
    exec (.vscan d a q t c o) s = .next (s.deliversR d t.toNat (scanGo t.toNat o.toNat
      (zipW (fun m x => (m, x)) ((List.range l.length).map (maskBit (s.Q q))) l)
      (if c = 1 then (vlanes t.toNat (s.V d)).getLast? else none)) 6))

/-! ## Registers: how results arrive, what stalls, what stays -/

/-- Frame of the 126 instructions that only compute register results (R250): when one issues, the
issuing column's bank gains results for its destination registers only; every other register, flag and special register,
every other column, all engine state and every byte of memory read as before. -/
def Obligations.RegisterOnlyFrame : Prop :=
  ∀ (i : Instr) (s t : State), registerOnly i = true → exec i s = .next t → t.last = .issued →
    s.RegisterFrame (writesOf i) t

/-- Results in flight (R176, R192, R203, R249, R390): a due result is written to its register, alone, with the flags and the
flush count it raises, which are those of its cycle when it falls due in this one. A word one of whose registers is pending
from an earlier group stalls with no other effect, stated for one instruction of each operand form; x0, which reads 0, and
q0, which reads all ones, are never pending. -/
def Obligations.Scoreboard : Prop :=
  (∀ (s : State) (p b n : Nat) (e : Pend) (w : VWord), ((s.col p).bank b).pend[n]? = some e → e.val = .known w →
     e.due ≤ (s.col p).cycle →
     ∃ t, exec (.registerWriteback p b n) s = .next t ∧ t = { s with cols := t.cols, last := .issued } ∧
       (∀ q, q ≠ p → t.col q = s.col q) ∧
       t.col p = { s.col p with banks := (t.col p).banks, numst := (s.col p).numst ||| e.flags,
                                ftzcnt := min ((s.col p).ftzcnt + e.ftz) 0xFFFFFFFF, cyFlags := (t.col p).cyFlags,
                                cyFtz := (t.col p).cyFtz } ∧
       ((t.col p).cyFlags, (t.col p).cyFtz) = (if e.due = (s.col p).cycle then
         ((s.col p).cyFlags ||| e.flags, (s.col p).cyFtz + e.ftz) else ((s.col p).cyFlags, (s.col p).cyFtz)) ∧
       (∀ c, c ≠ b → (t.col p).bank c = (s.col p).bank c) ∧
       ((t.col p).bank b).pend = dropAt ((s.col p).bank b).pend n ∧
       ∀ m, ((t.col p).bank b).readX m = (if e.reg = .x m ∧ m ≠ 0 then w.setWidth 64 else ((s.col p).bank b).readX m) ∧
         ((t.col p).bank b).readV m = (if e.reg = .v m then w else ((s.col p).bank b).readV m) ∧
         ((t.col p).bank b).readQ m = (if e.reg = .q m ∧ m ≠ 0 then w.setWidth 64 else ((s.col p).bank b).readQ m)) ∧
  ((∀ (s : State) (d a b : BitVec 5) (t : BitVec 3) (q : BitVec 3) (i : BitVec 12) (o : BitVec 4),
      let stall := fun (rs : List Reg) (j : Instr) =>
        s.ready rs = false → s.parkedOf rs = [] → exec j s = .next { s with last := .stalled }
      stall [.x a.toNat, .x b.toNat, .x d.toNat] (.add d a b) ∧
      stall [.x a.toNat, .x b.toNat, .x d.toNat] (.divu d a b) ∧
      stall [.x a.toNat, .x d.toNat] (.addi d a i) ∧
      stall [.x a.toNat, .x d.toNat] (.ldD d a i) ∧
      stall [.x a.toNat, .x d.toNat] (.stD d a i) ∧
      stall [.x a.toNat, .x b.toNat] (.beq a b i) ∧
      stall [.v a.toNat, .v b.toNat, .v d.toNat] (.vfmadd d a b t) ∧
      stall [.v a.toNat, .q q.toNat, .x d.toNat] (.vredAdd d a q t) ∧
      stall [.x a.toNat, .x b.toNat, .v d.toNat] (.vld d a b t o) ∧
      stall [.x a.toNat, .x b.toNat, .x d.toNat] (.amoAdd d a b o)) ∧
   (∀ s : State, s.X 0 = 0 ∧ s.Q 0 = BitVec.allOnes 64 ∧ s.ready [.x 0, .q 0] = true))

/-! ## A step runs the decoded instruction -/

/-- A step whose turn is column p's issue slot fetches the group at the firing's pc, and runs the instruction its lone word
decodes to: exec of it, then what follows every group (`countFetch`, `conclude`), and one package cycle (R190). While an acquire
or a fence holds back an instruction of its kind, the group stalls (R143, R145; engine commands are held at their start instead,
log 32). A word that does not decode traps with cause 0x001 and has no other effect (R199, R202). -/
def Obligations.StepRunsLoneWord : Prop :=
  ∀ (s : State) (p : Nat) (rest : List Turn) (f : Firing) (w next : Nat), s.readyToIssue p rest f →
    let v := s.atIssue p rest
    let run := fun (o : Out) => tickPackage (v.conclude w f.pc next (State.countFetch p f.pc 4 o))
    v.fetchGroup p f.pc f.jump f.last = .lone w next →
    (∀ (h : Header) (i : Instr), decodeNat w = .ok (h, i) →
      v.heldBy (Instr.orderKind i) [] = [] → step s = run (exec i (v.enter w f.pc next false))) ∧
    (∀ (h : Header) (i : Instr) (o : Order) (l : List Order), decodeNat w = .ok (h, i) → v.heldBy (Instr.orderKind i) [] = o :: l →
      ((o :: l).flatMap (·.engs)).all (fun n => !v.me.parkedIds.contains n) = true →
      step s = run (.next { v with last := .stalled })) ∧
    (∀ r : Reason, decodeNat w = .error r →
      step s = run ((v.enter 0 f.pc f.pc false).trap 1 (wordTval w f.pc r)))

/-- A pair (R190 to R195): the words are read before either writes, each as if alone (`c` and `a` are the states after the first
and after the second alone). A first word that stalls holds the group, the second having no effect; a second word that stalls
holds it with no effect at all. A trap or a park of the first word at issue cancels the second; one of the second cancels the
first, END, TRET and SYSWR included (the trap with which TRET ends the trap bank or passes its loop's exit is its own effect and
cancels nothing). Where both issue, the second acts on the first's result, but END and TRET act on the
second's, and SYSWR writes last, the value it read. A word that does not decode traps with 0x001, the first word's before the second's,
the second's only where the first neither stalls nor traps; two words with one destination trap with 0x007. That a stall comes before any trap of the group, and what a group with END,
TRET or SYSWR is, are logs 16 and 17, the model's choices. -/
def Obligations.StepRunsPair : Prop :=
  ∀ (s : State) (p : Nat) (rest : List Turn) (f : Firing) (w w2 next : Nat), s.readyToIssue p rest f →
    let v := s.atIssue p rest
    let run := fun (o : Out) => tickPackage (v.conclude w f.pc next (State.countFetch p f.pc 8 o))
    let sc := v.enter w f.pc next false
    let sa := v.enter w2 f.pc next true
    v.fetchGroup p f.pc f.jump f.last = .pair w w2 next →
    (∀ r : Reason, decodeNat w = .error r → v.heldBy ((firstInstr w2).elim 0 Instr.orderKind) [] = [] →
      step s = run ((v.enter 0 f.pc f.pc false).trap 1 (wordTval w f.pc r))) ∧
    (∀ (h : Header) (i : Instr) (r : Reason) (c : State), decodeNat w = .ok (h, i) → v.heldBy (Instr.orderKind i) [] = [] →
      decodeNat w2 = .error r → exec i sc = .next c →
      (c.last = .stalled ∨ v.cancels i c.last = true → step s = run (.next c)) ∧
      (c.last ≠ .stalled → v.cancels i c.last = false →
        step s = run ((v.enter 0 f.pc f.pc true).trap 1 (wordTval w2 (f.pc + 4) r)))) ∧
    (∀ (h h2 : Header) (i j : Instr), decodeNat w = .ok (h, i) → v.heldBy (Instr.orderKind i) [] = [] →
      decodeNat w2 = .ok (h2, j) → v.heldBy (Instr.orderKind j) [] = [] → afterA j = false →
      (sameDest i j = true → step s = run ((v.enter 0 f.pc f.pc true).trap 7 (wordTval w2 f.pc 0))) ∧
      (sameDest i j = false → ∀ c a : State, exec i sc = .next c → exec j sa = .next a →
        (c.last = .stalled → step s = run (.next c)) ∧
        (c.last ≠ .stalled → a.last = .stalled → step s = run (.next { v with last := .stalled })) ∧
        (c.last ≠ .stalled → a.last ≠ .stalled → v.cancels i c.last = true → step s = run (.next c)) ∧
        (c.last ≠ .stalled → v.cancels i c.last = false → a.last = .trapped ∨ a.last = .parked → step s = run (.next a)) ∧
        (c.last ≠ .stalled → v.cancels i c.last = false → a.last = .issued →
          (∀ d r, i = .syswr d r → step s = run (.next (a.modMe (fun k => k.sysWrite r.toNat (sc.X d))))) ∧
          (afterA i = true → step s = run (exec i { a with ctx := sc.ctx })) ∧
          (afterA i = false → (∀ d r, i ≠ .syswr d r) → step s = run (exec j { c with ctx := sa.ctx })))))

/-- After a group that issued (R190, R213, R393): without a jump and outside a loop the next group is the one after it, one
cycle later; with a jump it is the target, three cycles later after a branch, JAL or JALR. -/
def Obligations.NextGroup : Prop :=
  ∀ (s t : State) (f : Firing) (w pc next : Nat), t.last = .issued → t.me.inTrap = s.me.inTrap → t.fire = some f →
    f.stepMode = false → f.park = none → s.bk.loop = none → t.bk.loop = none →
    ∃ u g, s.conclude w pc next (.next t) = .next u ∧ u.fire = some g ∧ g.pc = t.redirect.getD next ∧
      u.me.cycle = t.me.cycle + (match t.redirect with
        | none => 1
        | some _ => if (firstInstr w).elim false Instr.branches then 3 else 1) ∧
      (u.gddr = t.gddr ∧ u.hostMem = t.hostMem ∧ u.me.ls = t.me.ls)

/-- A turn that is a step without encoding runs exactly that step: exec of it, and one package cycle, once the stack
interfaces have acted, which do nothing while no retraining is due or under way (R443), and what the turn ends of accesses made
granule by granule has ended, which is nothing where none is under way (R135). -/
def Obligations.StepRunsEvent : Prop :=
  ∀ (s : State) (i : Instr) (rest : List Turn), s.agenda = .event i :: rest → i.encoded = false →
    step s = tickPackage (exec i (({ s.ports with agenda := rest } : State).settleOwn (.event i))) ∧
    (s.late = [] → s.early = [] → s.settleOwn (.event i) = s) ∧
    (s.proctor.rtDue = [] → s.proctor.rtPause = [] → s.ports = s)

/-! ## Control transfers -/

/-- Branches, JAL, JALR and LOOP (R213 to R216), with the registers they read free: a branch whose condition holds goes to pc +
4 × offset and ends an active loop it leaves; JAL and JALR link the address after the group, JALR not when its target's fetch
traps, and a call ends an active loop; LOOP outside a loop with a body beyond its own group sets the loop up, or jumps past it
for a count of 0; inside an active loop, or with an exit not beyond its group, it traps with cause 0x188. -/
def Obligations.ControlTransfers : Prop :=
  (∀ (s : State) (a b d : BitVec 5) (o i : BitVec 12) (j : BitVec 22),
     let goes := fun (c : Prop) [Decidable c] =>
       Host.Outcome.next (if c then (s.jumpTo (BitVec.ofInt 64 ((s.ctx.pc : Int) + 4 * o.toInt)).toNat).done else s.done)
     (s.ready [.x a.toNat, .x b.toNat] = true →
       exec (.beq a b o) s = goes (s.X a = s.X b) ∧
       exec (.bne a b o) s = goes (s.X a ≠ s.X b) ∧
       exec (.blt a b o) s = goes ((s.X a).toInt < (s.X b).toInt) ∧
       exec (.bge a b o) s = goes ((s.X b).toInt ≤ (s.X a).toInt) ∧
       exec (.bltu a b o) s = goes ((s.X a).toNat < (s.X b).toNat) ∧
       exec (.bgeu a b o) s = goes ((s.X b).toNat ≤ (s.X a).toNat)) ∧
     (s.ready [.x 31] = true → exec (.jal j) s =
       .next (((s.result (.x 31) (BitVec.ofNat 512 s.ctx.next) 1).callTo
         (BitVec.ofInt 64 ((s.ctx.pc : Int) + 4 * j.toInt)).toNat).done)) ∧
     (s.ready [.x a.toNat, .x d.toNat] = true →
       let target := (s.X a + i.signExtend 64).toNat
       (∀ cause tval, s.fetchGroup s.cur target (some 0) 0 ≠ .trap cause tval) →
       exec (.jalr d a i) s = .next (let t := s.result (.x d.toNat) (BitVec.ofNat 512 s.ctx.next) 1
         (if d = 0 then t.jumpTo target else t.callTo target).done)) ∧
     (s.ready [.x a.toNat, .x d.toNat] = true →
       let target := (s.X a + i.signExtend 64).toNat
       (∃ cause tval, s.fetchGroup s.cur target (some 0) 0 = .trap cause tval) →
       exec (.jalr d a i) s = .next (if d = 0 then s.jumpTo target else s.callTo target).done) ∧
     (s.ready [.x a.toNat] = true → s.bk.loop = none → s.ctx.next < s.ctx.pc + 4 * i.toNat →
       let n := (s.X a).toNat % 2 ^ 32
       exec (.loop a i) s = .next (if n = 0 then ({ s with redirect := some (s.ctx.pc + 4 * i.toNat) }).done
         else (s.modBk (fun k => { k with loop := some { start := s.ctx.next, stop := s.ctx.pc + 4 * i.toNat, n := n } })).done))) ∧
  (∀ (s : State) (a : BitVec 5) (i : BitVec 12) (f : Firing), s.ready [.x a.toNat] = true → s.me.inTrap = false →
     s.fire = some f → (s.bk.loop.isSome = true ∨ s.ctx.pc + 4 * i.toNat ≤ s.ctx.next) →
     ∃ t g, exec (.loop a i) s = .next t ∧ t.last = .trapped ∧ t.me.cause = w64 (0x188 + 0x400) ∧
       t.me.tval = w64 s.ctx.pc ∧ t.fire = some g ∧ g.phase = .abort 0x188 1 (w64 s.ctx.pc) (s.ctx.pc % 2 ^ 20) true)

/-- NOP, SNAP, SYSRD, SYSWR and END (R42, R217, R220 to R222): NOP changes nothing; SNAP records X(s1) in SYS.SNAPV; SYSRD
delivers the register's value two cycles later; SYSWR writes it once no matrix command waits on it; END of a firing outside
the trap bank begins its commit; in the trap bank the firing aborts with cause 0x185 (R50), whose SYS.TVAL, the word, and TEPC are
log 23. A write keeps the fields of SYS.TVEC, 32 bits of SYS.EARLYP and SYS.FTZCNT, SYS.PROMO
within 1 to 1024, clears the bits written as 1 of SYS.NUMST and SYS.HOLD, and leaves SYS.CAUSE alone; flags and counts of
the same cycle come after it (R176). -/
def Obligations.SystemInstructions : Prop :=
  (∀ (s : State) (d a : BitVec 5) (r : BitVec 12) (c : BitVec 7),
     exec .nop s = .next s.done ∧
     (s.ready [.x a.toNat] = true →
       let u := s.modMe (fun k => { k with snapv := s.X a })
       exec (.snap a c) s = .next (u.matchSnap s.cur c.toNat).done ∧
       (s.proctor.armed = none → exec (.snap a c) s = .next u.done)) ∧
     (s.ready [.x d.toNat] = true →
       exec (.sysrd d r) s = .next (s.deliversX d (s.sysRead r.toNat) 2) ∧
       (s.me.sysWait r.toNat = false →
         exec (.syswr d r) s = .next ((s.modMe (fun k => k.sysWrite r.toNat (s.X d))).done)) ∧
       (s.me.sysWait r.toNat = true → exec (.syswr d r) s = .next { s with last := .stalled })) ∧
     (s.me.inTrap = false → exec .endFiring s = .next ((s.modFire (fun f => { f with phase := .commit })).done)) ∧
     (s.me.inTrap = true → s.me.running.isSome = true → ∀ f, s.fire = some f →
       ∃ t g, exec .endFiring s = .next t ∧ t.last = .trapped ∧ t.me.inTrap = false ∧ t.me.cause = w64 (0x185 + 0x400) ∧
         t.me.tval = w64 s.ctx.raw ∧ t.fire = some g ∧
         g.phase = .abort 0x185 1 (w64 s.ctx.raw) (s.ctx.pc % 2 ^ 20) true)) ∧
  (∀ (c : Column) (v : Word),
     (c.sysWrite 0x007 v).tvec = v &&& 0x1FFFF8 ∧
     (c.sysWrite 0x013 v).earlyp = min (v.toNat % 2 ^ 32 + c.cyEarly) 0xFFFFFFFF ∧
     (c.sysWrite 0x011 v).ftzcnt = min (v.toNat % 2 ^ 32 + c.cyFtz) 0xFFFFFFFF ∧
     1 ≤ (c.sysWrite 0x012 v).promo ∧ (c.sysWrite 0x012 v).promo ≤ 1024 ∧
     (c.sysWrite 0x003 v).hold = c.hold &&& ~~~ v ∧
     (c.sysWrite 0x010 v).numst = (BitVec.ofNat 64 c.numst &&& ~~~ v).toNat ||| c.cyFlags ∧
     c.sysWrite 0x004 v = c)

/-- Address conversions and ATEST (R111, R235, R236): an offset below the aperture's size takes its base, anything else gives
all ones; the other conversions and ATEST follow the decoded address; every one delivers after one cycle. -/
def Obligations.AddressConversion : Prop :=
  ∀ (s : State) (d a : BitVec 5), s.ready [.x a.toNat, .x d.toNat] = true →
    let n := (s.X a).toNat
    exec (.acvtG d a) s = .next (s.deliversX d (if n < 2 ^ 47 then s.X a else BitVec.allOnes 64) 1) ∧
    exec (.acvtL d a) s =
      .next (s.deliversX d (if n < 2 ^ 24 then BitVec.ofNat 64 (0xF000000000000000 + n) else BitVec.allOnes 64) 1) ∧
    exec (.acvtC d a) s =
      .next (s.deliversX d (if n < 2 ^ 26 then BitVec.ofNat 64 (0xF100000000000000 + n) else BitVec.allOnes 64) 1) ∧
    exec (.acvtOff d a) s = .next (s.deliversX d (acvtOff s.cur (s.X a)) 1) ∧
    exec (.acvtLc d a) s = .next (s.deliversX d (acvtLc s.cur (s.X a)) 1) ∧
    exec (.acvtCl d a) s = .next (s.deliversX d (acvtCl s.cur (s.X a)) 1) ∧
    exec (.atest d a) s = .next (s.deliversX d (atestWord s.cur (s.X a)) 1)

/-! ## Taking a trap and returning from it -/

/-- TRAP (R50, R218): with P = 0, SYS.TVEC.EN = 1 and outside the trap bank the trap bank is entered: cause, value and the
group's address are recorded, execution goes on at ENTRY four cycles later in bank 4, and no band's registers change. Otherwise
the firing aborts with the cause on path 1, its matrix commands dropped with what their steps wrote (R281). In the trap bank it
aborts with 0x186, whose value is the cause; that its TEPC is the address of the trap bank's group is log 23, the model's reading
(DEDUCED), as R50 gives none. -/
def Obligations.TrapInstruction : Prop :=
  (∀ (s : State) (a : BitVec 5) (p : BitVec 1) (n : BitVec 6) (f : Firing), s.ready [.x a.toNat] = true →
     s.me.inTrap = false → s.fire = some f →
     ∃ t g, exec (.trap a p n) s = .next t ∧ t.last = .trapped ∧ t.me.tval = s.X a ∧
       t.me.tepc = w64 (s.ctx.pc % 2 ^ 20 + (if s.ctx.aw then 2 ^ 20 else 0)) ∧ t.fire = some g ∧
       (∀ q, q ≠ s.cur → t.col q = s.col q) ∧ (s.me.mrun = none → ∀ l, t.rd l = s.rd l) ∧
       (∀ b m, (t.me.bank b).readX m = (s.me.bank b).readX m ∧ (t.me.bank b).readV m = (s.me.bank b).readV m ∧
         (t.me.bank b).readQ m = (s.me.bank b).readQ m) ∧
       (if p = 0 ∧ s.me.tvec.getLsbD 20 = true then
         t.me.inTrap = true ∧ t.me.bankIx = 4 ∧ t.me.cause = w64 (0x40 + n.toNat) ∧ t.me.tmsg = f.trig ∧
           t.me.cycle = s.me.cycle + 4 ∧ g.pc = s.me.tvec.toNat % 2 ^ 20 ∧ g.phase = f.phase ∧ ∀ l, t.rd l = s.rd l
       else
         t.me.inTrap = false ∧ (∀ l, t.rd l = (s.modMe (fun c => c.dropMatrix c.band)).rd l) ∧ t.me.cause = w64 (0x40 + n.toNat + 0x400) ∧
           g.phase = .abort (0x40 + n.toNat) 1 (s.X a) (s.ctx.pc % 2 ^ 20) true)) ∧
  (∀ (s : State) (a : BitVec 5) (p : BitVec 1) (n : BitVec 6) (f : Firing), s.ready [.x a.toNat] = true →
     s.me.inTrap = true → s.fire = some f → s.me.running.isSome = true →
     ∃ t g, exec (.trap a p n) s = .next t ∧ t.last = .trapped ∧ t.me.inTrap = false ∧
       t.me.cause = w64 (0x186 + 0x400) ∧ t.me.tval = w64 (0x40 + n.toNat) ∧ t.fire = some g ∧
       g.phase = .abort 0x186 1 (w64 (0x40 + n.toNat)) (s.ctx.pc % 2 ^ 20) true)

/-- TRET (R219): in the trap bank, retry resumes at the trapping group; next resumes after it, when no loop is active; abort
ends the firing with the recorded cause, value and address. Outside the trap bank each traps with cause 0x189. -/
def Obligations.TrapReturn : Prop :=
  ∀ (s : State) (f : Firing), s.fire = some f →
    (s.me.inTrap = true →
      let pc := s.me.tepc.toNat % 2 ^ 20
      let back := fun (i : Instr) (at_ : Nat) => ∃ t g, exec i s = .next t ∧ t.last = .issued ∧ t.me.inTrap = false ∧
        t.me.cycle = s.me.cycle + 3 ∧ t.fire = some g ∧ g.pc = at_ ∧ g.phase = f.phase ∧ t.me.cause = s.me.cause ∧
        (∀ l, t.rd l = s.rd l)
      back .tretRetry pc ∧
      ((s.me.bank s.me.band).loop = none →
        back .tretNext (pc + if (s.mem32 s.cur pc) / 2 ^ 30 % 4 = 0 then 8 else 4)) ∧
      (s.me.running.isSome = true → ∃ t g, exec .tretAbort s = .next t ∧ t.me.inTrap = false ∧ t.fire = some g ∧
        g.phase = .abort (s.me.cause.toNat % 2 ^ 10) (abortPath (s.me.cause.toNat % 2 ^ 10)) s.me.tval pc true)) ∧
    (s.me.inTrap = false → ∀ i : Instr, (i = .tretRetry ∨ i = .tretNext ∨ i = .tretAbort) →
      ∃ t g, exec i s = .next t ∧ t.last = .trapped ∧ t.me.cause = w64 (0x189 + 0x400) ∧
        t.me.tval = w64 s.ctx.raw ∧ t.fire = some g ∧
        g.phase = .abort 0x189 1 (w64 s.ctx.raw) (s.ctx.pc % 2 ^ 20) true)

/-- An illegal group (R199, R202, Table 7-5): outside the trap bank the firing aborts with the cause on path 1, its value and
the group's address recorded; no register and no other column changes, nor any byte of memory but those that steps of the
matrix command at work have written (R281). -/
def Obligations.IllegalGroup : Prop :=
  ∀ (s : State) (cause : Nat) (v : Word) (f : Firing), 1 ≤ cause → cause ≤ 8 → s.me.inTrap = false → s.fire = some f →
    ∃ t g, exec (.illegalInstruction cause v) s = .next t ∧ t.last = .trapped ∧ t.me.cause = w64 (cause + 0x400) ∧
      t.me.tval = v ∧ t.me.tepc = w64 (s.ctx.pc % 2 ^ 20 + (if s.ctx.aw then 2 ^ 20 else 0)) ∧ t.fire = some g ∧
      g.phase = .abort cause 1 v (s.ctx.pc % 2 ^ 20) true ∧ (∀ q, q ≠ s.cur → t.col q = s.col q) ∧
      (∀ l, t.rd l = (s.modMe (fun c => c.dropMatrix c.band)).rd l) ∧ (s.me.mrun = none → ∀ l, t.rd l = s.rd l) ∧
      (∀ b m, (t.me.bank b).readX m = (s.me.bank b).readX m ∧ (t.me.bank b).readV m = (s.me.bank b).readV m ∧
        (t.me.bank b).readQ m = (s.me.bank b).readQ m)

/-! ## Memory instructions -/

/-- Loads and stores of the own local store through window 0 (R114, R224, R225, R226): an aligned LD sign-extends, LDU and
LDF zero-extend the little-endian bytes at the address; LDCH adds its immediate to the 8 bytes at X(s1); two cycles later. An
aligned store writes the low bytes of X(d) at the address; every other byte, every register, flag and special register is
unchanged. -/
def Obligations.LocalAccesses : Prop :=
  (∀ (s : State) (d a : BitVec 5) (i : BitVec 12) (o : Nat), s.ready [.x a.toNat, .x d.toNat] = true → s.quiet → s.unordered →
     let v := fun (n : Nat) => s.rdNat (.ls s.cur o) n
     let fits := fun (n : Nat) => o % n = 0 ∧ o + n ≤ 2 ^ 20
     (s.X a + i.signExtend 64 = localAddr o →
       (fits 1 → exec (.ldB d a i) s = .next (s.deliversX d ((BitVec.ofNat 8 (v 1)).signExtend 64) 2) ∧
         exec (.lduB d a i) s = .next (s.deliversX d (BitVec.ofNat 64 (v 1)) 2)) ∧
       (fits 2 → exec (.ldH d a i) s = .next (s.deliversX d ((BitVec.ofNat 16 (v 2)).signExtend 64) 2) ∧
         exec (.lduH d a i) s = .next (s.deliversX d (BitVec.ofNat 64 (v 2)) 2) ∧
         exec (.ldfBf16 d a i) s = .next (s.deliversX d (BitVec.ofNat 64 (v 2)) 2)) ∧
       (fits 4 → exec (.ldW d a i) s = .next (s.deliversX d ((BitVec.ofNat 32 (v 4)).signExtend 64) 2) ∧
         exec (.lduW d a i) s = .next (s.deliversX d (BitVec.ofNat 64 (v 4)) 2) ∧
         exec (.ldfF32 d a i) s = .next (s.deliversX d (BitVec.ofNat 64 (v 4)) 2)) ∧
       (fits 8 → exec (.ldD d a i) s = .next (s.deliversX d (BitVec.ofNat 64 (v 8)) 2))) ∧
     (s.X a = localAddr o → fits 8 →
       exec (.ldch d a i) s = .next (s.deliversX d (BitVec.ofNat 64 (v 8) + i.signExtend 64) 2))) ∧
  (∀ (s : State) (d a : BitVec 5) (i : BitVec 12) (o : Nat), s.ready [.x a.toNat, .x d.toNat] = true → s.quiet → s.unordered →
     s.X a + i.signExtend 64 = localAddr o →
     let stores := fun (j : Instr) (n : Nat) => o % n = 0 → o + n ≤ 2 ^ 20 →
       ∃ t, exec j s = .next t ∧ s.StoresOwn o n (s.X d) t
     stores (.stB d a i) 1 ∧ stores (.stH d a i) 2 ∧ stores (.stW d a i) 4 ∧ stores (.stD d a i) 8 ∧
       stores (.stfF32 d a i) 4 ∧ stores (.stfBf16 d a i) 2)

/-- Scalar loads and stores of any checked access (R41, R115, R116, R119, R225, R232, Table 16-2): a load of the own local
store delivers what its window makes of the bytes, scaled by SYS.WSCALE for LDF, any other is a request that holds the
register pending, from a neighbour slot with a response of 8 cycles; LDCH in any address space reads 8 bytes at X(s1) and adds
its immediate; a store writes its container code (raw, clamped, or
rounded to nearest even with its flags) at once in the own local store, any other is one send-buffer entry with no byte of
memory changed, or traps with 0x181, and no other effect, when 16 are held. Own accesses are stated of a turn
that does not access granule by granule (log 153). -/
def Obligations.ScalarAnyWindow : Prop :=
  (∀ (s : State) (d a : BitVec 5) (i : BitVec 12) (c : Acc) (l : List Loc), s.ready [.x a.toNat, .x d.toNat] = true →
     s.mxWait false l = false → s.heldBy 1 l = [] → s.badLoc l = none → s.apart = false →
     let va := s.X a + i.signExtend 64
     let done := fun (va : Word) (k : LoadFin) => Host.Outcome.next (if c.isOwn then
         (s.countRead l).delivers (.x d.toNat) (loadFin k (l.map s.rd)).w 2 (loadFin k (l.map s.rd)).fl
           (loadFin k (l.map s.rd)).ftz
       else ((s.awaiting (.x d.toNat) s.nextId).request va (.load l k.fin k.win k.tgt k.scale k.imm) (some (.x d.toNat))
         (if c.glob then 0 else 8)).done)
     let raw := (c.glob || c.win == 0) = true
     let int := fun (j : Instr) (n u : Nat) => s.access va false (scalarSize n) (scalarAlign n) admitInt = .ok c l →
       exec j s = done va { fin := if raw then u else 2 + u, win := c.win, tgt := 8 * n, scale := 0, imm := 0 }
     let flt := fun (j : Instr) (n f : Nat) => s.access va false (scalarSize n) (scalarAlign n) admitLdf = .ok c l →
       exec j s = done va { fin := if raw then 1 else f, win := c.win, tgt := 0, scale := s.scale c.win, imm := 0 }
     int (.ldB d a i) 1 0 ∧ int (.ldH d a i) 2 0 ∧ int (.ldW d a i) 4 0 ∧ int (.ldD d a i) 8 0 ∧ int (.lduB d a i) 1 1 ∧
       int (.lduH d a i) 2 1 ∧ int (.lduW d a i) 4 1 ∧ flt (.ldfF32 d a i) 4 4 ∧ flt (.ldfBf16 d a i) 2 5 ∧
       (s.access (s.X a) false (fun _ => 8) (fun _ => 8) (fun c => c.glob || c.win == 0) = .ok c l → exec (.ldch d a i) s =
         done (s.X a) { fin := 6, win := 0, tgt := 0, scale := 0, imm := i.signExtend 64 })) ∧
  (∀ (s : State) (d a : BitVec 5) (i : BitVec 12) (c : Acc) (l : List Loc), s.ready [.x a.toNat, .x d.toNat] = true →
     s.mxWait true l = false → (c.isOwn = true → s.heldBy 2 l = [] ∧ s.apart = false) →
     let va := s.X a + i.signExtend 64
     let write := fun (ws : List ByteW) (fl ftz : Nat) =>
       let u := if fl = 0 ∧ ftz = 0 then s else s.modMe (fun k => k.raise fl ftz)
       let held := Send.store (byLine (zipW (fun a w => (a, w)) (seqAddrs va l.length) ws)) s.ctx.pc none s.nextId
       if c.isOwn = true then Host.Outcome.next (u.wrAll ws).done
       else if 16 ≤ (s.fire.elim 0 (·.sends.length)) then s.trap 0x181 (w64 s.ctx.raw)
       else .next ({ u.modFire (fun f => { f with sends := f.sends ++ [held] }) with nextId := s.nextId + 1 } : State).done
     let int := fun (j : Instr) (n : Nat) => s.access va true (scalarSize n) (scalarAlign n) admitInt = .ok c l →
       exec j s = write (byteWs l (leBytes l.length (storeInt n c (s.X d)))) 0 0
     let flt := fun (j : Instr) (n : Nat) (F : Fmt) => s.access va true (scalarSize n) (scalarAlign n) admitStf = .ok c l →
       exec j s = (let bits := (s.X d).toNat % 2 ^ (8 * n)
         let r := (winFmt c.win).cvt (F.decode bits) 0 false
         if c.glob = true ∨ c.win = 0 then write (byteWs l (leBytes n bits)) 0 0
         else write (byteWs l (leBytes l.length r.code)) r.fl r.ftz)
     int (.stB d a i) 1 ∧ int (.stH d a i) 2 ∧ int (.stW d a i) 4 ∧ int (.stD d a i) 8 ∧ flt (.stfF32 d a i) 4 FP32 ∧
       flt (.stfBf16 d a i) 2 BF16)

/-- The issue checks in their order (R109, R212), stated of LD.d, ST.d and AMO.ADD, with SYS.TVAL the address: outside every
aperture, or past the end of one, 0x100; window 15 of a local store 0x101; a window that does not admit the access 0x103; a
misaligned address 0x102. -/
def Obligations.AccessChecks : Prop :=
  ∀ (s : State) (d a b : BitVec 5) (o : BitVec 4), s.ready [.x a.toNat, .x d.toNat] = true →
    s.ready [.x a.toNat, .x b.toNat, .x d.toNat] = true →
    let va := s.X a
    let traps := fun (cause : Nat) => exec (.ldD d a 0) s = s.trap cause va ∧ exec (.stD d a 0) s = s.trap cause va ∧
      exec (.amoAdd d a b o) s = s.trap cause va
    (2 ^ 47 ≤ va.toNat → va.toNat < 0xF000000000000000 → traps 0x100) ∧
    (0xF000000001000000 ≤ va.toNat → va.toNat < 0xF100000000000000 → traps 0x100) ∧
    (0xF100000004000000 ≤ va.toNat → traps 0x100) ∧
    (0xF000000000F00000 ≤ va.toNat → va.toNat ≤ 0xF000000000FFFFF8 → traps 0x101) ∧
    (0xF000000000FFFFF8 < va.toNat → va.toNat < 0xF000000001000000 → traps 0x100) ∧
    (0xF100000000000000 ≤ va.toNat → va.toNat ≤ 0xF100000003FFFFF8 → va.toNat / 2 ^ 20 % 16 = 15 → traps 0x101) ∧
    (0xF100000003FFFFF8 < va.toNat → va.toNat < 0xF100000004000000 → traps 0x100) ∧
    (0xF000000000100000 ≤ va.toNat → va.toNat < 0xF000000000200000 → traps 0x103) ∧
    (0xF000000000000000 ≤ va.toNat → va.toNat < 0xF000000000100000 → va.toNat % 8 ≠ 0 → traps 0x102)

/-- Vector loads and stores of any checked access (R114 to R116, R227 to R230, Table 16-2): a whole access, or one element
per lane of the strided and indexed forms, is read at once from the own local store into the lanes, one cycle later per
64-byte line beyond the first for the lane forms, or requested, from a neighbour slot 6 cycles later; a store writes the
converted lanes, or holds them in the send buffer, or traps with 0x181, and no other effect, when 16 entries are held.
Own accesses are stated of a turn that does not access granule by granule (log 153). -/
def Obligations.VectorMemory : Prop :=
  ∀ (s : State) (d a b : BitVec 5) (t : BitVec 3) (o : BitVec 4) (c : Acc) (l : List Loc),
    let loads := fun (va : Word) (lat : Nat) => let k := vecFin s t.toNat c
      Host.Outcome.next (if c.isOwn then
        (s.countRead l).delivers (.v d.toNat) (loadFin k (l.map s.rd)).w lat (loadFin k (l.map s.rd)).fl
          (loadFin k (l.map s.rd)).ftz
      else (((s.awaiting (.v d.toNat) s.nextId).request va (.load l k.fin k.win k.tgt k.scale k.imm)
        (some (.v d.toNat)) (if c.glob then 0 else lat + 6)).acquire o s.nextId).done)
    let stores := fun (vas : List Word) (ls : List Nat) => let r := ls.map (stLane t.toNat c)
      let ws := byteWs l (leBytes l.length (packNat (stBits t.toNat c) (r.map (·.code))))
      let u := if flagsOf r = 0 ∧ ftzOf r = 0 then s else s.modMe (fun k => k.raise (flagsOf r) (ftzOf r))
      let held := Send.store (byLine (zipW (fun a w => (a, w)) vas ws)) s.ctx.pc (relScope o) s.nextId
      if c.isOwn = true then Host.Outcome.next (u.wrAll ws).done
      else if 16 ≤ s.fire.elim 0 (·.sends.length) then s.trap 0x181 (w64 s.ctx.raw)
      else .next ({ u.modFire (fun f => { f with sends := f.sends ++ [held] }) with nextId := s.nextId + 1 } : State).done
    let lanes := lanesOf (laneW t.toNat) (s.V d)
    let strided := strideAddrs (laneN t.toNat) (s.X a) (s.X b)
    let indexed := indexAddrs (s.X a) (s.V b)
    let each := fun (as : List Word) => as.flatMap (fun x => seqAddrs x (scalarSize (laneW t.toNat / 8) c))
    (s.badLoc l = none → s.mxWait false l = false → s.heldBy 1 l = [] → s.apart = false →
      (s.ready [.x a.toNat, .x b.toNat, .v d.toNat] = true →
        (s.access (s.X a + s.X b) false (vecSize t.toNat) vecAlign (admitVld t.toNat) = .ok c l →
          exec (.vld d a b t o) s = loads (s.X a + s.X b) 2) ∧
        (s.accessLanes strided t.toNat false = .ok c l →
          exec (.vlds d a b t o) s = loads (strided.headD 0) (2 + extraLines l))) ∧
      (s.ready [.x a.toNat, .v b.toNat, .v d.toNat] = true → s.accessLanes indexed t.toNat false = .ok c l →
          exec (.vgath d a b t o) s = loads (indexed.headD 0) (2 + extraLines l))) ∧
    (s.mxWait true l = false → (c.isOwn = true → s.relWait o = false ∧ s.heldBy 2 l = [] ∧ s.apart = false) →
      (s.ready [.x a.toNat, .x b.toNat, .v d.toNat] = true →
        (s.access (s.X a + s.X b) true (vecSize t.toNat) vecAlign (admitVst t.toNat) = .ok c l →
          exec (.vst d a b t o) s = stores (seqAddrs (s.X a + s.X b) l.length) lanes) ∧
        (s.accessLanes strided t.toNat true = .ok c l →
          exec (.vsts d a b t o) s = stores (each strided) (lanes.take (laneN t.toNat)))) ∧
      (s.ready [.x a.toNat, .v b.toNat, .v d.toNat] = true → s.accessLanes indexed t.toNat true = .ok c l →
          exec (.vscat d a b t o) s = stores (each indexed) (lanes.take 16)))

/-- Atomics (R231, R232, Table 8-7): in the own local store the 8 bytes are read, combined with X(s2) and written as one event
and X(d) takes the old value three cycles later; compare-and-swap writes only where the old value equals X(d); anywhere else
the operation is one request, answered by a neighbour slot after 9 cycles, which at host memory is add, swap or
compare-and-swap, and traps with 0x103 otherwise. -/
def Obligations.Atomics : Prop :=
  ∀ (s : State) (d a b : BitVec 5) (o : BitVec 4) (c : Acc) (x : Loc) (l : List Loc),
    s.ready [.x a.toNat, .x b.toNat, .x d.toNat] = true →
    s.access (s.X a) true (fun _ => 8) (fun _ => 8) (fun c => c.glob || c.win == 0) = .ok c (x :: l) →
    s.relWait o = false → s.mxWait true (x :: l) = false → s.heldBy 3 (x :: l) = [] → s.badLoc (x :: l) = none →
    let u := s.countRead (x :: l)
    let old := BitVec.ofNat 64 (u.rdNat x 8)
    let amo := fun (j : Instr) (op : Nat) (new : Option Word) =>
      exec j s = if isHost x = true ∧ hostAmo op = false then s.trap 0x103 (s.X a) else .next (if c.isOwn then
        (match new with
          | some w => u.wrNat x 8 w.toNat
          | none => u).deliversX d old 3
      else (((s.awaiting (.x d.toNat) s.nextId).request (s.X a) (.amo x op (s.X b) (s.X d)) (some (.x d.toNat))
        (if c.glob then 0 else 9)).acquire o s.nextId).done)
    amo (.amoAdd d a b o) 0 (some (old + s.X b)) ∧ amo (.amoAnd d a b o) 1 (some (old &&& s.X b)) ∧
      amo (.amoOr d a b o) 2 (some (old ||| s.X b)) ∧ amo (.amoXor d a b o) 3 (some (old ^^^ s.X b)) ∧
      amo (.amoMin d a b o) 4 (some (if (s.X b).toInt < old.toInt then s.X b else old)) ∧
      amo (.amoMax d a b o) 5 (some (if old.toInt < (s.X b).toInt then s.X b else old)) ∧
      amo (.amoSwap d a b o) 6 (some (s.X b)) ∧
      amo (.amoCas d a b o) 7 (if old = s.X d then some (s.X b) else none)

/-- FENCE and LFENCE (R145, R147, R233): FENCE issues at once and orders what it names, the loads and atomics not yet
performed within its scope, the engine commands of the firing, at system scope with W also the host stores not yet
accepted; while any of these is left, a later access of its kinds within the scope stalls; with none it changes nothing.
LFENCE issues at once; later groups wait for the started LSE commands of its layer that have not finished writing. That FENCE
issues at once and holds back later words instead is log 32, that LFENCE waits for the commands that have started log 33: the
model's readings. -/
def Obligations.Fences : Prop :=
  (∀ (s : State) (e m r : BitVec 1) (o n : BitVec 3),
     let order : Order :=
       { kinds := r.toNat + 2 * m.toNat + 4 * e.toNat, scope := o.toNat,
         reqs := if r = 1 then s.unperformed o.toNat false else if m = 1 then s.unperformed o.toNat true else [],
         engs := if e = 1 then s.engineIds s.cur s.me.band else [], flush := m == 1 && o == 4, fresh := true }
     exec (.fence e m r o) s = .next (if s.orderOver order then s.done
       else (s.modFire (fun f => { f with orders := f.orders.filter (fun x => !s.orderOver x) ++ [order] })).done) ∧
     ((r = 1 → s.unperformed o.toNat false = []) → (m = 1 → s.unperformed o.toNat true = []) →
       (m = 1 → o = 4 → s.hostPending s.cur = false) → (e = 1 → s.engineIds s.cur s.me.band = []) →
       exec (.fence e m r o) s = .next s.done) ∧
     exec (.lfence n) s = .next (s.modFire (fun f => { f with
       lwait := some (f.lwait.getD [] ++ s.lseInLayer s.cur n.toNat) })).done) ∧
  (∀ (s : State) (d a b : BitVec 5) (i : BitVec 12) (q : BitVec 4) (c : Acc) (l : List Loc) (f : Firing) (x : Order),
     s.ready [.x a.toNat, .x d.toNat] = true → s.ready [.x a.toNat, .x b.toNat, .x d.toNat] = true → s.fire = some f →
     x ∈ f.orders → x.fresh = false → s.orderOver x = false → l.any (inScope s.cur x.scope s.capacity) = true →
     s.me.parkedIds = [] →
     let va := s.X a + i.signExtend 64
     let stalls := fun (j : Instr) => exec j s = .next { s with last := .stalled }
     (x.kinds % 2 = 1 → s.access va false (scalarSize 8) (scalarAlign 8) admitInt = .ok c l → stalls (.ldD d a i)) ∧
     (x.kinds / 2 % 2 = 1 → c.isOwn = true → s.access va true (scalarSize 8) (scalarAlign 8) admitInt = .ok c l →
       stalls (.stD d a i)) ∧
     (x.kinds % 4 ≠ 0 → (∀ y ∈ l, isHost y = false) →
       s.access (s.X a) true (fun _ => 8) (fun _ => 8) (fun c => c.glob || c.win == 0) = .ok c l → stalls (.amoAdd d a b q))) ∧
  (∀ (s : State) (f : Firing) (l : List Nat), f.lwait = some l →
     (∃ k ∈ sget [] s.lse (dieOf s.cur), k.id ∈ l ∧ k.switched = false) → s.drained f = false)

/-- Phase barriers and monitored waits (R243 to R247, R391): in the own local store PBARR subtracts the count, and at zero
advances the phase and reloads, a count above what is pending also setting OVR and trapping with 0x18C; PBWAIT and MWAIT
deliver once the phase has left the one named, or the condition holds, or the time has passed, and otherwise stall. A wait
on a word of global memory requests it, and its response is judged in the same way. -/
def Obligations.BarriersWaits : Prop :=
  (∀ (s : State) (d a b : BitVec 5) (o : BitVec 4) (z : BitVec 1) (q : BitVec 2) (c : Acc) (x : Loc) (l : List Loc),
    s.ready [.x a.toNat, .x b.toNat, .x d.toNat] = true → c.isOwn = true → isHost x = false →
    s.badLoc (x :: l) = none →
    let at_ := fun (wr : Bool) (n : Nat) =>
      s.access (s.X a) wr (fun _ => n) (fun _ => n) (fun c => c.glob || c.win == 0) = .ok c (x :: l) ∧
        s.mxWait wr (x :: l) = false ∧ s.heldBy (if wr then 3 else 1) (x :: l) = []
    let waited := s.me.cycle - s.waitFrom
    let done := fun (read : List Loc) (w : Nat) => Host.Outcome.next (((s.countRead read).modFire (fun f =>
      { f with wait := none })).deliversX d (BitVec.ofNat 64 w) 2)
    (at_ true 16 → s.relWait o = false →
      let u := s.countRead (x :: l)
      let g0 := u.rdNat x 8
      let g1 := u.rdNat (x.add 8) 8
      let pend := g0 % 2 ^ 32
      let n := (s.X b).toNat
      let t := fun (p ph ov : Nat) => ((u.wrNat x 8 (p + 2 ^ 32 * (g0 / 2 ^ 32))).wrNat (x.add 8) 8 (ph + ov))
      (pend < n → exec (.pbarr d a b o) s = ((t (g0 / 2 ^ 32) ((g1 % 16 + 1) % 16) 16).result (.x d.toNat)
        (BitVec.ofNat 512 (g1 % 16 + 16)) 3).trap 0x18C (s.X a)) ∧
      (n ≤ pend → exec (.pbarr d a b o) s = .next (if n = pend ∧ 0 < n then
          (t (g0 / 2 ^ 32) ((g1 % 16 + 1) % 16) (g1 / 16 % 2 * 16)).deliversX d (BitVec.ofNat 64 (g1 % 16 + 16)) 3
        else (t (pend - n) (g1 % 16) (g1 / 16 % 2 * 16)).deliversX d (BitVec.ofNat 64 (g1 % 16)) 3))) ∧
    (at_ false 16 → s.heldBy 1 ((x :: l).drop 8) = [] → s.ownBefore ((x :: l).drop 8) = false →
      exec (.pbwait d a b o) s = (let g := s.rdNat (x.add 8) 8
        if g % 16 ≠ (s.X b).toNat % 16 ∨ (s.X b).toNat / 2 ^ 32 ≤ waited then
          done ((x :: l).drop 8) (g % 32 + if g % 16 = (s.X b).toNat % 16 then 32 else 0)
        else (s.countRead ((x :: l).drop 8)).waitOn none)) ∧
    (at_ false (if z = 1 then 8 else 4) → s.ownBefore (x :: l) = false →
      let n := if z = 1 then 8 else 4
      let v := s.rdNat x n
      let w := (s.X b).toNat % 2 ^ (8 * n)
      let holds := fun (k : BitVec 2) => if k = 0 then v = w else if k = 1 then v ≠ w else w ≤ v
      exec (.mwait d a b q z o) s =
        if holds q ∨ (s.X d).toNat % 2 ^ 32 ≤ waited then done (x :: l) v else (s.countRead (x :: l)).waitOn none)) ∧
  (∀ (s : State) (d a b : BitVec 5) (o : BitVec 4) (q : BitVec 2) (c : Acc) (l : List Loc),
    s.ready [.x a.toNat, .x b.toNat, .x d.toNat] = true → c.glob = true →
    s.access (s.X a) false (fun _ => 8) (fun _ => 8) (fun c => c.glob || c.win == 0) = .ok c l →
    s.heldBy 1 l = [] → s.mxWait false l = false →
    (s.wait = none → exec (.mwait d a b q 1 o) s =
      (s.request (s.X a) (.load l 1 0 0 0 0) (some (.x d.toNat))).waitOn (some s.nextId)) ∧
    (∀ since v when fl ftz, s.wait = some { since := since, req := none, got := some (.done v fl ftz, when) } →
      let w := (s.X b).toNat
      let holds := if q = 0 then v.toNat = w else if q = 1 then v.toNat ≠ w else w ≤ v.toNat
      (holds ∨ (s.X d).toNat % 2 ^ 32 ≤ when - since → exec (.mwait d a b q 1 o) s =
        .next ((s.modFire (fun f => { f with wait := none })).deliversX d (BitVec.ofNat 64 v.toNat) 0)) ∧
      (¬holds → when - since < (s.X d).toNat % 2 ^ 32 → exec (.mwait d a b q 1 o) s = s.waitOn none)))

/-- What becomes of a remote request (R110, R135, R141, R225, R232, R246, R440, R441): a granule of it, or all that is left,
is performed at its target, outside the state backing region (R332), once no earlier request of its column still has to
reach that granule; an atomic is one event; the target may refuse it where R441 lets it. A performed load or atomic binds its
register, a performed store is acknowledged; a refused store is reported as 0x10B, a refused load or atomic defers 0x10C, and
a barrier that overran 0x18C. -/
def Obligations.RemoteRequests : Prop :=
  ∀ (s : State) (n : Nat) (k : Option Nat) (r : MemReq), s.reqs[n]? = some r →
    let run := match k with
      | none => exec (.memoryRequest n false) s
      | some j => s.runTurn (.granule n j)
    let x := r.piece k
    let at_ := x.map (·.2)
    let put := fun (u : State) (q : MemReq) => ({ u with reqs := setAt s.reqs n q } : State).done
    let now := (s.col r.col).cycle
    let whole := x.length = r.left.length
    let gone : State := { s with reqs := dropAt s.reqs n }
    (r.st = .sent → reqBlocked s.reqs n r.col x = false →
      (k = none → s.mayRefuse r = true → r.got = [] → exec (.memoryRequest n true) s = .next (put s { r with st := .refused })) ∧
      (s.inBacking r.col r.va.toNat at_ = false → s.inBacking r.col r.va.toNat r.op.locs = false →
        (∀ ws, r.op = .store ws → run = .next (put (s.wrAll (r.op.bytesAt x))
          (let got := r.got ++ x.map (fun y => (y.1, 0))
           if whole then { r with st := .done 0 0 0, got := got, when := now } else { r with got := got }))) ∧
        (∀ l fin win tgt scale imm, r.op = .load l fin win tgt scale imm → s.badLoc at_ = none →
          let got := r.got ++ x.map (fun y => (y.1, s.rd y.2))
          let v := loadFin { fin := fin, win := win, tgt := tgt, scale := scale, imm := imm }
            ((List.range l.length).map (fun i => ((got.find? (fun g => g.1 == i)).map (·.2)).getD 0))
          run = .next (put (s.countRead at_)
            (if whole then { r with st := .done v.w v.fl v.ftz, got := got, when := now } else { r with got := got }))) ∧
        (∀ l fin win tgt scale imm y, r.op = .load l fin win tgt scale imm → s.badLoc at_ = some y →
          run =
            .next (put s { r with st := .bad (errCause y).1 (errCause y).2, when := now })) ∧
        (∀ y op b cas, r.op = .amo y op b cas →
          (s.errAt y 8 ≠ 2 → run = .next (put ((s.countRead r.op.locs).amoAt y op b cas).2
            { r with st := .done ((BitVec.ofNat 64 ((s.countRead r.op.locs).rdNat y 8)).setWidth 512) 0 0, got := [],
                     when := now })) ∧
          (s.errAt y 8 = 2 → run =
            .next (put s { r with st := .refused, got := [], when := now }))) ∧
        (∀ y va c, r.op = .pbarr y va c → s.errAt y 16 ≠ 2 →
          run = .next (put ((s.countRead r.op.locs).pbarrAt y c).2
            { r with st := .done ((s.countRead r.op.locs).pbarrAt y c).1 0 0, got := [], when := now })))) ∧
    (∀ g w fl ftz, r.dst = some g → r.st = .done w fl ftz →
      let binds := fun (u : State) (v : VWord) => u.modCol r.col (fun c => c.completeReq r.band r.id v fl ftz r.due)
      ((∀ y va c, r.op ≠ .pbarr y va c) →
        exec (.memoryResponse n) s = .next (binds (gone.readWait r) w).done) ∧
      (∀ y va c, r.op = .pbarr y va c →
        (w.getLsbD 64 = false →
          exec (.memoryResponse n) s = .next (binds (gone.readWait r) (w % BitVec.ofNat 512 (2 ^ 64))).done) ∧
        (w.getLsbD 64 = true → s.awaits r = true →
          exec (.memoryResponse n) s = .next (binds ((gone.readWait r).modCol r.col (fun c => c.modFiring r.band (fun f =>
            { f with deferred := f.deferred ++ [⟨r.id, 0x18C, 1, r.va, r.tepc, r.aw⟩] })))
            (w % BitVec.ofNat 512 (2 ^ 64))).done))) ∧
    (∀ g cause tval, r.dst = some g → r.st = .bad cause tval →
      exec (.memoryResponse n) s = .next ((gone.readWait r).deferReq r cause 2 tval).done) ∧
    (∀ w fl ftz, r.dst = none → r.st = .done w fl ftz → exec (.acknowledgement n) s = .next gone.done) ∧
    (r.st = .refused →
      (r.dst = none → exec (.refusal n) s = .next (gone.reportOnly 0x10B r.col r.va r.tmsg r.tepc r.rseq).done) ∧
      (r.dst.isSome = true → exec (.refusal n) s = .next ((gone.readWait r).deferReq r 0x10C 1 r.va).done))

/-! ## Channels and bell lines -/

/-- RECV (R40, R237, R238): with the input declared, the count not exhausted and a message ahead of any marker, the oldest
untaken one is taken by the band, copied unit by unit to the landing area after the units already taken, and its address
delivered 2 cycles plus one per unit later; an undeclared input or one take too many traps with 0x184; none there stalls. That a marker ahead of
every untaken message stalls as an empty channel does is log 47, the model's reading. -/
def Obligations.Receive : Prop :=
  ∀ (s : State) (d : BitVec 5) (ch : BitVec 7) (f : Firing), s.me.inTrap = false → s.ready [.x d.toNat] = true →
    s.fire = some f →
    let n := ch.toNat
    let k := s.me.chan n
    let mine := k.takenBy s.me.band
    let o := k.land + 64 * itemUnits mine
    (f.ent.inOf n = none → exec (.recv d ch) s = s.trap 0x184 (w64 n)) ∧
    (∀ i, f.ent.inOf n = some i →
      (i.count ≤ mine.length → exec (.recv d ch) s = s.trap 0x184 (w64 n)) ∧
      (mine.length < i.count → findIx (fun i => i.taken.isNone) k.items = none →
        exec (.recv d ch) s = .next { s with last := .stalled }) ∧
      (∀ ix it, mine.length < i.count → findIx (fun i => i.taken.isNone) k.items = some ix → k.items[ix]? = some it →
        (it.msg.isMarker = true → exec (.recv d ch) s = .next { s with last := .stalled }) ∧
        (it.msg.isMarker = false → s.me.mxCmds = [] →
          exec (.recv d ch) s = .next (((s.modMe (fun c => c.setChan n
            { k with items := setAt k.items ix { it with taken := some s.me.band } })).wrBytes (.ls s.cur o)
              it.msg.bytes).deliversX d (localAddr o) (2 + it.msg.units)))))

/-- SEND (R41, R77, R239): a message in the own local store that passes the checks is captured whole in one send-buffer
entry, with the header's kind and length, and counts its units as they will be delivered; no byte of memory changes. The
checks in their order: the end of the local store 0x104; an undeclared output 0x183; a kind above 2, or a marker with payload,
0x18A; more units than an opened output's capacity 0x18F; more than its declared count 0x182; a full send buffer 0x181. A
read that a matrix command's write precedes stalls. -/
def Obligations.SendMessage : Prop :=
  (∀ (s : State) (d : BitVec 5) (ch : BitVec 7) (f : Firing) (o : Nat), s.me.inTrap = false → s.ready [.x d.toNat] = true →
     s.fire = some f → sendAddr s.cur (s.X d) = .ok o →
     let n := ch.toNat
     let hdr := s.rdNat (.ls s.cur o) 8
     let len := hdr / 2 ^ 21 % 8
     (s.mxWait false ((List.range 8).map (fun x => .ls s.cur (o + x))) = true →
       exec (.send d ch) s = .next { s with last := .stalled }) ∧
     (s.me.mxCmds = [] → 2 ^ 20 < o + 64 * (len + 1) → exec (.send d ch) s = s.trap 0x104 (s.X d)) ∧
     (s.me.mxCmds = [] → o + 64 * (len + 1) ≤ 2 ^ 20 →
       (∀ cause v, s.sendCheck f n hdr = .error (cause, v) → exec (.send d ch) s = s.trap cause v) ∧
       (∀ out, s.sendCheck f n hdr = .ok out → s.me.lsFlip = [] →
         exec (.send d ch) s = .next (s.modFire (fun f => { f with
           sends := f.sends ++ [.msg out.dest n (hdr / 2 ^ 17 % 16) len (s.rdBytes (.ls s.cur (o + 8)) (64 * (len + 1) - 8))],
           sent := sput 0 f.sent n (f.sentOn n + s.unitsTo out.dest n (hdr / 2 ^ 17 % 16) len) })).done))) ∧
  (∀ (s : State) (f : Firing) (n hdr : Nat),
     let kind := hdr / 2 ^ 17 % 16
     let len := hdr / 2 ^ 21 % 8
     (f.ent.outOf n = none → s.sendCheck f n hdr = .error (0x183, w64 n)) ∧
     (∀ o, f.ent.outOf n = some o →
       let out := s.me.out (outKey o.dest n)
       let bad := 2 < kind ∨ (kind ≠ 0 ∧ len ≠ 0)
       let big := out.opened = true ∧ out.cap < len + 1
       let many := o.count ≠ 0 ∧ o.count < f.sentOn n + s.unitsTo o.dest n kind len
       (bad → s.sendCheck f n hdr = .error (0x18A, w64 hdr)) ∧
       (¬bad → big → s.sendCheck f n hdr = .error (0x18F, w64 n)) ∧
       (¬bad → ¬big → many → s.sendCheck f n hdr = .error (0x182, w64 n)) ∧
       (¬bad → ¬big → ¬many → 16 ≤ f.sends.length → s.sendCheck f n hdr = .error (0x181, w64 s.ctx.raw)) ∧
       (¬bad → ¬big → ¬many → f.sends.length < 16 → s.sendCheck f n hdr = .ok o))) ∧
  (∀ (s : State) (dest ch kind len : Nat) (r : Route), s.routeTo s.me.ctx s.cur dest ch = some r → s.endsAt r = none →
     s.unitsTo dest ch kind len = r.lenAfter kind len + 1)

/-- PEEK and CHST (R240, R241, Table 8-9): outside the trap bank, with the register free, PEEK of a declared input delivers the
header it finds and 2^63 where there is none; CHST delivers the word of the channel; each two cycles later. What PEEK finds
is the k-th untaken message, and a marker only at the head: that markers count in this numbering is log 49, the model's reading,
as R240 speaks of the k-th untaken message. -/
def Obligations.ChannelReads : Prop :=
  (∀ (s : State) (d : BitVec 5) (i : BitVec 4) (ch : BitVec 7) (f : Firing), s.me.inTrap = false →
    s.ready [.x d.toNat] = true → s.fire = some f →
    let k := s.me.chan ch.toNat
    exec (.peek d i ch) s = .next (s.deliversX d (if (f.ent.inOf ch.toNat).isSome then
      ((k.peek i.toNat).map Msg.header).getD (BitVec.ofNat 64 (2 ^ 63)) else BitVec.ofNat 64 (2 ^ 63)) 2) ∧
    exec (.chst d ch) s = .next (s.deliversX d (BitVec.ofNat 64 (k.untaken.length + 2 ^ 5 * (k.slots - k.used) +
      2 ^ 10 * k.slots + (if k.markerNext then 2 ^ 15 else 0) + 2 ^ 16 * (k.takenBy s.me.band).length +
      (if (f.ent.inOf ch.toNat).isSome then 2 ^ 21 else 0))) 2)) ∧
  (∀ (k : Chan) (n : Nat), let l := k.items.filter (fun i => i.taken.isNone)
     (l.length ≤ n → k.peek n = none) ∧
     (∀ i, l[n]? = some i → k.peek n = if i.msg.isMarker = true ∧ n ≠ 0 then none else some i.msg))

/-- Bell lines (R97, R156, R242): BELLA by a member whose flag is clear, once the firing's loads and atomics within the line's
scope are performed, sets it, and the last arrival clears every flag and flips the phase; BELLW delivers the phase once the
own flag is clear; BELLT delivers flag and phase; a line that is unbound, or a column that is no member, traps with 0x18B.
That BELLW delivers 2 cycles later is log 50, and that the flip is there at once, beside the delays of R98, log 13: the model's
choices. -/
def Obligations.Bells : Prop :=
  ∀ (s : State) (d l : BitVec 5), s.ready [.x d.toNat] = true →
    let b := s.bell (dieOf s.cur) l.toNat
    (b.group = none → exec (.bella l) s = s.trap 0x18B (w64 l.toNat) ∧ exec (.bellw d l) s = s.trap 0x18B (w64 l.toNat) ∧
      exec (.bellt d l) s = s.trap 0x18B (w64 l.toNat)) ∧
    (∀ g, b.group = some g →
      let ms := members (s.groupMap g)
      (s.cur ∉ ms → exec (.bella l) s = s.trap 0x18B (w64 l.toNat)) ∧
      (s.cur ∈ ms →
        (s.cur ∈ b.flags → exec (.bella l) s = .next { s with last := .stalled } ∧
          exec (.bellw d l) s = .next { s with last := .stalled }) ∧
        (s.cur ∉ b.flags →
          (s.relWaitAt (bellScope ms) = true → exec (.bella l) s = .next { s with last := .stalled }) ∧
          (s.relWaitAt (bellScope ms) = false → (∀ p ∈ ms, p = s.cur ∨ p ∈ b.flags) → exec (.bella l) s =
            .next (s.setBell l.toNat ms { b with flags := [], phase := !b.phase }).done) ∧
          (s.relWaitAt (bellScope ms) = false → (∃ p ∈ ms, p ≠ s.cur ∧ p ∉ b.flags) → exec (.bella l) s =
            .next (s.setBell l.toNat ms { b with flags := s.cur :: b.flags }).done) ∧
          exec (.bellw d l) s = .next (s.delivers (.x d.toNat) (BitVec.ofNat 512 (if b.phase then 1 else 0)) 2)) ∧
        exec (.bellt d l) s = .next (s.delivers (.x d.toNat)
          (BitVec.ofNat 512 ((if s.cur ∈ b.flags then 1 else 0) + (if b.phase then 2 else 0))) 2)))

/-! ## Matrix commands -/

/-- Matrix commands at issue (R277, R283, R285, R291 to R295, R301, R302): with the tile declared, the checks passed and room
in the queue, the command enters it, MRD, SEEDX and SEEDFIT hold their register pending, MMA and MMAG advance their streams
and account for the reads of compressed handles' tile counts, and nothing else changes; an undeclared tile or one named in the trap
bank traps with 0x080, an address or a group that fails its checks with its cause, MRD.W of a float tile with 0x081, more than 32
rows with 0x083; a full queue stalls. That the checks use the mode the tile has after the commands queued before is log 51, that
the queue's two entries count the waiting commands only log 52, that an operand through window 15 gives 0x101 log 146: the
model's choices. -/
def Obligations.MatrixIssue : Prop :=
  ∀ (s : State) (c : BitVec 3) (a b d v : BitVec 5) (z e r m1 : BitVec 1) (m : BitVec 3) (g : BitVec 2),
    let T := c.toNat
    let queues := fun (i : Instr) (op : MOp) (dst : Option Reg) => ∃ t, exec i s = .next t ∧ s.Queues op dst s.bk.sagb t
    let row := fieldW (s.X b) 4 0
    let seg := fieldW (s.X b) 6 5
    let rdy := s.ready [.x a.toNat, .x b.toNat] = true
    (s.tileReady c →
      queues (.mzero c m1) (.zero T (m1 == 1)) none ∧
      queues (.mprom c) (.prom T) none ∧
      (s.ready [.x b.toNat, .v v.toNat] = true →
        (s.me.modeOf T = false → queues (.mrdW c v b) (.read T v.toNat row seg 0 0 false) (some (.v v.toNat))) ∧
        (s.me.modeOf T = true → exec (.mrdW c v b) s = s.trap 0x081 (w64 (T + 2 ^ 11))) ∧
        queues (.mrdF32 c v b z m) (.read T v.toNat row seg 1 m.toNat (z == 1)) (some (.v v.toNat)) ∧
        queues (.mrdBf16 c v b z m) (.read T v.toNat row seg 2 m.toNat (z == 1)) (some (.v v.toNat)) ∧
        queues (.mrdRaw c v b) (.read T v.toNat row seg 3 0 false) (some (.v v.toNat))) ∧
      (s.ready [.v v.toNat] = true → queues (.mrdStat c v) (.read T v.toNat 0 0 4 0 false) (some (.v v.toNat))) ∧
      (rdy → ∀ k, mxAddr s.cur (s.X a) (ownWin (fun w => w != 0)) = .ok k →
        let stride := fieldW (s.X b) 23 0
        let so := fieldW (s.X b) 43 24
        (z = 1 → winInt k.win = false) → k.off % winAlign k.win = 0 → stride % winAlign k.win = 0 →
        k.off + 31 * stride + ceilDiv (32 * winBits k.win) 8 ≤ 2 ^ 20 → (e = 1 → so % 4 = 0 ∧ so + 128 ≤ 2 ^ 20) →
        queues (.mst c a b e z m) (.store T k.off k.win stride (if e = 1 then some so else none) (z == 1) m.toNat) none) ∧
      (rdy → ∀ x, mxAddr s.cur (s.X a) (ownWin (fun w => w != 0)) = .error x → exec (.mst c a b e z m) s = s.trap x.1 x.2) ∧
      (s.ready [.x a.toNat] = true → ∀ x, mxAddr s.cur (s.X a) (fun k => !k.glob && (k.win == 0 || k.win == 14)) = .error x →
        exec (.mscl c a r) s = s.trap x.1 x.2) ∧
      (s.ready [.x a.toNat] = true → ∀ k, mxAddr s.cur (s.X a) (fun k => !k.glob && (k.win == 0 || k.win == 14)) = .ok k →
        k.off % 4 = 0 → k.off + 128 ≤ 2 ^ 20 → queues (.mscl c a r) (.scale T k.col k.off (r == 1)) none) ∧
      (rdy →
        let steps := fieldW (s.X b) 15 0
        let ms := mmagCounts (s.X b) (g.toNat + 1)
        let total := ms.foldl (· + ·) 0
        let issues := fun (i : Instr) (spans : List (Nat × Nat × Nat)) =>
          (steps = 0 → queues i (.mma T []) none) ∧
          (steps ≠ 0 →
            (∀ gs, s.mmaGroups T (s.X a) steps (fieldW (s.X b) 35 16) spans = .ok gs →
              let u := s.countWords T gs
              ∃ t, exec i s = .next t ∧
                u.Queues (.mma T gs) none ((u.me.advance gs).bank u.me.band).sagb t) ∧
            (∀ cause tval, s.mmaGroups T (s.X a) steps (fieldW (s.X b) 35 16) spans = .error (cause, tval) →
              exec i s = s.trap cause tval))
        issues (.mma c a b g) [(g.toNat, 0, 32)] ∧
        (total ≤ 32 → issues (.mmag c a b g) (mmagSpans ms 0 0)) ∧
        (32 < total → exec (.mmag c a b g) s = s.trap 0x083 (w64 (fieldW (s.X b) 59 36))))) ∧
    (s.ready [.x a.toNat, .x b.toNat, .x d.toNat] = true → s.me.mq.length < 2 →
      (∀ x, seedAddr s.cur (s.X a) (fun w => w == 0 || w == 11) (fun _ => 2048) = .error x →
        exec (.seedx d a b) s = s.trap x.1 x.2) ∧
      (∀ x, seedAddr s.cur (s.X a) (fun w => w == 11 || w == 14) (fun c => if c.win = 11 then 2048 else 4096) = .error x →
        exec (.seedfit d a b v) s = s.trap x.1 x.2) ∧
      (∀ k o, seedAddr s.cur (s.X a) (fun w => w == 0 || w == 11) (fun _ => 2048) = .ok k →
        seedAddr s.cur (s.X b) (fun w => w == 0) (fun _ => 64) = .ok o →
        queues (.seedx d a b) (.seedx d.toNat o.off k.off) (some (.x d.toNat))) ∧
      (∀ k o, seedAddr s.cur (s.X a) (fun w => w == 11 || w == 14) (fun c => if c.win = 11 then 2048 else 4096) = .ok k →
        seedAddr s.cur (s.X b) (fun w => w == 0) (fun _ => 64) = .ok o →
        queues (.seedfit d a b v) (.seedfit d.toNat k.off k.win o.off v.toNat) (some (.x d.toNat)))) ∧
    (s.ready [.x a.toNat, .x b.toNat, .v v.toNat] = true →
      ((s.me.inTrap = true ∨ bitN (s.fire.elim 0 (·.ent.acc)) T = false) →
        ∀ i ∈ [Instr.mzero c m1, .mprom c, .mrdW c v b, .mrdF32 c v b z m, .mrdBf16 c v b z m, .mrdRaw c v b, .mrdStat c v,
          .mst c a b e z m, .mscl c a r, .mma c a b g, .mmag c a b g], exec i s = s.trap 0x080 (w64 T)) ∧
      (s.me.inTrap = false → bitN (s.fire.elim 0 (·.ent.acc)) T = true → 2 ≤ s.me.mq.length →
        ∀ i ∈ [Instr.mzero c m1, .mprom c, .mrdF32 c v b z m, .mrdBf16 c v b z m, .mrdRaw c v b, .mrdStat c v],
          exec i s = .next { s with last := .stalled }))

/-- The matrix unit (R177 to R181, R279 to R281, R290, R293 to R295, R297, R301, R302): the oldest queued command of a firing that
has not stopped starts, once the earlier loads and atomics of its firing have reached the bytes it reads or writes (R279): MZERO
clears its tile, MPROM, MRD and MST promote theirs, poison ends an MRD or MST with 0x302. Each due step advances the command: a step
of an MMA or MMAG adds its contributions to the tile and poisons the rows whose operands are bad, or, where an integer tile would
leave its inner range, promotes it and steps later. What it has to write it writes granule by granule, those of one granule in
order, and what it reads it reads once by granule. A command without steps left completes: MSCL scales its tile, which is float then,
MRD, SEEDX and SEEDFIT write their register. That MZERO and MPROM act whole at the start and MSCL at completion is log 57, that
SEEDFIT computes at its last batch log 58: the model's choices. -/
def Obligations.MatrixUnit : Prop :=
  (∀ (s : State) (p : Nat) (m : MCmd) (q : List MCmd) (f : Firing),
     (s.col p).mrun = none → (s.col p).mq = m :: q → (s.col p).firing m.band = some f → (s.col p).mayRun m = true →
     s.afterReqs p m = false →
     ∃ t, exec (.matrixCommandStart p) s = .next t ∧ t.last = .issued ∧ (t.col p).mq = q ∧ (∀ l, t.rd l = s.rd l) ∧
       (let go := (t.col p).mrun = some ((s.col p).started m)
        let same := fun (k : Nat) => ∀ j, j ≠ k → (t.col p).tile j = (s.col p).tile j
        let promoted := fun (k : Nat) => same k ∧ (t.col p).tile k = ((s.col p).tile k).promote.1
        let due := fun (k : Nat) (mst : Bool) => (DTrap.mk m.id 0x302 2
          (w64 (((s.col p).tile k).poison + 2 ^ 32 * k + 2 ^ 35 * b2n mst)) m.tepc m.aw)
        let ends := fun (k : Nat) (mst : Bool) => (t.col p).mrun = none ∧
          (t.col p).firing m.band = some { f with deferred := f.deferred ++ [due k mst] }
        let idle := go ∧ ∀ k, (t.col p).tile k = (s.col p).tile k
        match m.begun, m.op with
        | true, _ => idle
        | false, .zero k fl => go ∧ same k ∧ (t.col p).tile k = { Tile.zero with fl := fl }
        | false, .prom k => go ∧ promoted k
        | false, .read k _ row _ op _ _ => if op = 4 then idle
            else promoted k ∧ (if bitN ((s.col p).tile k).poison row = true then ends k false else go)
        | false, .store k _ _ _ _ _ _ => promoted k ∧ (if ((s.col p).tile k).poison ≠ 0 then ends k true else go)
        | false, _ => idle)) ∧
  (∀ (s : State) (p : Nat) (m : MCmd), (s.col p).mrun = some m → (s.col p).mayRun m = true → m.due ≤ (s.col p).cycle →
     (m.out ≠ [] → ∃ t i w, exec (.matrixStep p) s = .next t ∧ m.out[i]? = some w ∧
       (∀ v ∈ m.out.take i, v.1 / 8 ≠ w.1 / 8) ∧ (t.col p).mrun = some { m with out := dropAt m.out i } ∧
       (∀ k, k < w.2.length → t.rd (.ls p (w.1 + k)) = w.2.getD k 0) ∧
       (∀ l, (∀ k, k < w.2.length → l ≠ .ls p (w.1 + k)) → t.rd l = s.rd l)) ∧
     (m.out = [] → m.stepsLeft = true →
       (let steps := fun (q : MCmd) => ∃ t, exec (.matrixStep p) s = .next t ∧ (∀ l, t.rd l = s.rd l) ∧
          (t.col p).mrun = some q
        (∀ k gs g, m.op = .mma k gs → gs[m.grp]? = some g → s.proctor.rtPause.contains (dieOf p) = false →
          let q := (s.fetchGrans p m g.acol (g.grans g.ais (m.ks g))).1
          let x := (s.col p).stepData q g
          let old := (s.col p).tile k
          let int := old.stepInt (s.col p).promo (x.ints g)
          ∃ t, exec (.matrixStep p) s = .next t ∧ (∀ l, t.rd l = s.rd l) ∧
            (∀ j, j ≠ k → (t.col p).tile j = (s.col p).tile j) ∧
            (if m.promoted = false ∧ old.fl = false ∧ int.2.1 = true then
              (t.col p).tile k = old.promote.1 ∧
                (t.col p).mrun = some { q with promoted := true, due := (s.col p).stepAt m + 1 }
            else
              (let new := if old.fl then (old.stepFp (x.vals g)).1 else int.1
               (t.col p).tile k = { new with poison := old.poison ||| x.poison g }) ∧
              ∃ n, (t.col p).mrun = some { q with
                grp := if m.step + 1 < g.steps then m.grp else m.grp + 1,
                step := if m.step + 1 < g.steps then m.step + 1 else 0, due := n, again := false, promoted := false })) ∧
        (∀ k off win stride sc sat mode, m.op = .store k off win stride sc sat mode →
          ∃ n bs r, bs.length = ceilDiv (32 * winBits win) 8 ∧ steps { m with
            step := m.step + 1, due := n, reads := r, out := granules (off + m.step * stride) bs (bs.length + 1) }) ∧
        (∀ d r dst, m.op = .seedx d r dst → let q := (s.fetchGrans p m p (gransOf r 64)).1
          let x := seedxResult (q.val r 64).1
          steps { q with out := granules dst x.1 (x.1.length + 1), res := some x.2.1 }) ∧
        (∀ d tgt win blk n, m.op = .seedfit d tgt win blk n →
          let q := (s.fetchGrans p m p (gransOf tgt (if win = 11 then 2048 else 4096) ++ gransOf blk 64)).1
          let x := seedFit ((List.range 1024).map (fun e => winVal win (q.elem tgt (winBits win) e))) (q.val blk 64).1 n
          (m.step + 1 < ceilDiv (2 ^ n) 256 → ∃ e, steps { m with step := m.step + 1, due := e }) ∧
          (ceilDiv (2 ^ n) 256 ≤ m.step + 1 → steps { q with
            step := m.step + 1, res := some x.1,
            out := x.2.1.elim [] (fun b => granules blk (leBytes 64 b) 9) })))) ∧
     (m.stepsLeft = false →
       ∃ t, exec (.matrixCommandComplete p) s = .next t ∧ t.last = .issued ∧ (t.col p).mrun = none ∧
         (∀ l, t.rd l = s.rd l) ∧
         (let writes := fun (w : VWord) => s.Binds p m.band m.id w t
          (∀ k v row seg op mode sat, m.op = .read k v row seg op mode sat →
            writes (((s.col p).tile k).lanes row seg op mode sat).1) ∧
          (∀ k col o byCol, m.op = .scale k col o byCol →
            let q := (s.fetchGrans p m col (gransOf o 128)).1
            let u := ((s.col p).tile k).promote.1
            let v := fun e => if u.fl then FP56.decode (u.fpAll.getD e 0) else .ofInt (u.wideAll.getD e 0)
            (∀ j, j ≠ k → (t.col p).tile j = (s.col p).tile j) ∧ ((t.col p).tile k).fl = true ∧
              ∀ e, e < 1024 → ((t.col p).tile k).fpAll[e]? =
                some (FP56.round (Val.mul (v e) (q.scaleVal o (if byCol then e % 32 else e / 32)).1).1 0).code) ∧
          (∀ d r dst x, m.op = .seedx d r dst → m.res = some x → writes (BitVec.ofNat 512 x)) ∧
          (∀ d tgt win blk n x, m.op = .seedfit d tgt win blk n → m.res = some x → writes (BitVec.ofNat 512 x))))) ∧
  (∀ (s : State) (p : Nat) (m : MCmd) (col o n : Nat), m.reads = [] →
     ((s.fetchGrans p m col (gransOf o n)).1.val o n).1 = s.rdNat (.ls col o) n)

/-- The contents of a tile after a step (R177 to R180, R182). The contribution of a step to element (i, j) of a row of its group
is the exact sum of the products of row i of A and column j of B over its K indices, on integer and on float tiles; other rows
take none. A float tile's element becomes the sum of its value and its contribution, rounded once to nearest even into FP56; a
row without a contribution stays. Of an integer tile: while no wide value saturates, wide plus inner value of every element grows
by exactly its contribution, whatever the promotion interval; inner values stay within 24 bits signed when every contribution is
smaller in magnitude than 2^17; mode and poison stay. -/
def Obligations.MatrixIntegerExact : Prop :=
  (∀ (x : StepData) (g : MGroup) (i j : Nat), x.as.length = g.rows → g.row0 + g.rows ≤ 32 → i < 32 → j < 32 →
     let mine := g.row0 ≤ i ∧ i < g.row0 + g.rows
     let a := (x.as.getD (i - g.row0) []).map (·.1)
     let bi := x.rows.map (fun r => (r.2.bits.map (winInt_value g.fb)).getD j 0)
     let bv := x.rows.map (fun r => (r.2.bits.map (winVal g.fb)).getD j (.fin false 0 0))
     (x.ints g)[32 * i + j]? = some (if mine then dot (a.map (winInt_value g.fa)) bi else 0) ∧
     (x.vals g)[32 * i + j]? = some (if mine then
       some (sumVals (zip2 Val.mul (a.map (winVal g.fa)) bv)) else none)) ∧
  (∀ (t : Tile) (d : List (Option (Val × Nat))), d.length = 1024 →
     let u := (t.stepFp d).1
     u.fl = t.fl ∧ u.poison = t.poison ∧ ∀ e, e < 1024 → u.fpAll[e]? = some (match d.getD e none with
       | none => t.fpAll.getD e 0
       | some v => (FP56.round (Val.add 0 (FP56.decode (t.fpAll.getD e 0)) v.1).1 0).code)) ∧
  ∀ (t : Tile) (p : Nat) (d : List Int), d.length = 1024 →
    let u := (t.stepInt p d).1
    let total := fun (x : Tile) => zip2 (· + ·) x.wideAll x.innerAll
    let fits := fun (x : Tile) => ∀ v ∈ x.innerAll, -(2 ^ 23) ≤ v ∧ v ≤ 2 ^ 23 - 1
    t.fl = false →
    ((t.stepInt p d).2.2 = false → total u = zip2 (· + ·) (total t) d) ∧
    ((∀ v ∈ d, -(2 ^ 17) < v ∧ v < 2 ^ 17) → fits u) ∧
    u.fl = false ∧ u.poison = t.poison ∧ (1 ≤ p → u.n < p)

/-! ## Engines -/

/-- Engine commands at issue (R305 to R309, R317, R319, R323, R325 to R327, R330): with the operands free, the checks passed,
no incomplete matrix command in the way and room in the queue, the command enters its engine's queue, X(d) is pending, and
nothing else changes; CTARM arms its template, ctarm.off disarms it; KTBFILL enters its key, KTBINV removes the keys it
names; a failed check traps with its cause; a full queue stalls. That CTARM checks the descriptor's addresses before the rest of
it is log 65, that the command an engine is carrying out holds no entry of its queue log 52, that KVAPP checks the base of the
block table before the block number and the entry log 151: the model's choices. -/
def Obligations.EngineIssue : Prop :=
  ∀ (s : State) (d a b : BitVec 5) (o z : BitVec 3) (n : BitVec 4) (sn : BitVec 1),
    let abd := s.ready [.x a.toNat, .x b.toNat, .x d.toNat] = true
    let queues := fun (i : Instr) (c : Column) => ∃ t, exec i s = .next t ∧ s.Commands d c t
    let stalls := fun (i : Instr) => exec i s = .next { s with last := .stalled }
    let copyRoom := s.me.copyWaiting s.me.band < 2
    (let cpy := fun (i : Instr) (stamp : Bool) =>
       let len := fieldW (s.X d) 31 0
       let st := if stamp then some (fieldW (s.X d) 63 32) else none
       (∀ cause v, copyCheck s.cur (s.X a) (s.X b) len stamp = .error (cause, v) → exec i s = s.trap cause v) ∧
       (∀ x, copyCheck s.cur (s.X a) (s.X b) len stamp = .ok x →
         (oddLen (s.copyKind s.cur x len) len = true → exec i s = s.trap 0x200 (w64 len)) ∧
         (oddLen (s.copyKind s.cur x len) len = false →
           s.mxWait true (x.dstLocs (len + (if stamp then 8 else 0))) = false → s.mxWait false (x.srcLocs len) = false →
           (copyRoom → queues i (s.plusCopy (.cpy (s.X a) (s.X b) len st o.toNat))) ∧ (¬copyRoom → stalls i)))
     abd → cpy (.cpy d a b o) false ∧ cpy (.cpyS d a b o) true) ∧
    (∀ x, engAddr s.cur (s.X a) ownRaw 32 32 = .error x →
      (s.ready [.x a.toNat] = true → exec (.ctarm a n) s = s.trap x.1 x.2) ∧
      (s.ready [.x a.toNat, .x d.toNat] = true → exec (.lswap d a) s = s.trap x.1 x.2)) ∧
    (∀ x, engAddr s.cur (s.X a) ownRaw 32 32 = .ok x → s.quiet →
      let v := s.rdNat (.ls s.cur x.off) 32
      (s.ready [.x a.toNat] = true →
        (∀ y, copyCheck s.cur (descDst v) (descSrc v) (descLen v) (bitN v 160) = .error y →
          exec (.ctarm a n) s = s.trap y.1 y.2) ∧
        (∀ y, copyCheck s.cur (descDst v) (descSrc v) (descLen v) (bitN v 160) = .ok y →
          (descOk (s.me.tpl n.toNat) v = true → exec (.ctarm a n) s =
            .next (s.modMe (fun c => c.setTpl n.toNat { c.tpl n.toNat with desc := some v })).done) ∧
          (descOk (s.me.tpl n.toNat) v = false → exec (.ctarm a n) s = s.trap 0x201 (s.X a)))) ∧
      (s.ready [.x a.toNat, .x d.toNat] = true →
        (s.lseOk s.cur v = false → exec (.lswap d a) s = s.trap 0x202 (s.X a)) ∧
        (s.lseOk s.cur v = true → (copyRoom → queues (.lswap d a) (s.plusCopy (.lswap v))) ∧
          (¬copyRoom → stalls (.lswap d a))))) ∧
    exec (.ctarmOff n) s = .next (s.modMe (fun c => c.setTpl n.toNat { c.tpl n.toNat with desc := none })).done ∧
    (let sid := keySid (s.X b)
     let pos := fieldW (s.X b) 63 32
     let e := 64 * 2 ^ z.toNat
     let blk := pos / (4096 / e)
     let off := pos % (4096 / e)
     let base := (s.X d).toNat
     abd → (∀ x, engAddr s.cur (s.X a) ownRaw 64 e = .error x → exec (.kvapp d a b z) s = s.trap x.1 x.2) ∧
      (∀ c, engAddr s.cur (s.X a) ownRaw 64 e = .ok c →
       (2 ^ 47 ≤ base → exec (.kvapp d a b z) s = s.trap 0x200 (s.X d)) ∧
       (base < 2 ^ 47 → base % 4 ≠ 0 → exec (.kvapp d a b z) s = s.trap 0x102 (s.X d))) ∧
      (∀ c, engAddr s.cur (s.X a) ownRaw 64 e = .ok c → base < 2 ^ 47 → base % 4 = 0 →
       (2 ^ 16 ≤ blk → exec (.kvapp d a b z) s = s.trap 0x206 (w64 pos)) ∧
       (blk < 2 ^ 16 → s.mxWait false (lsLocs s.cur c.off e) = false →
         (∀ k, (ktbFind s.me.ktb sid blk).bind (ktbAt s.me.ktb) = some k → s.kvFull = false →
           queues (.kvapp d a b z) (s.plusKv (.append c.off sid blk off z.toNat base false k.idx))) ∧
         ((ktbFind s.me.ktb sid blk).bind (ktbAt s.me.ktb) = none →
           (off ≠ 0 → exec (.kvapp d a b z) s = s.trapLocal 0x203 (w64 (sid + 2 ^ 20 * blk))) ∧
           (∀ k, off = 0 → s.kvFull = false → s.me.ktbPut sid blk none s.nextId = some k →
             queues (.kvapp d a b z) { s.plusKv (.append c.off sid blk off z.toNat base true none) with
               ktb := k.ktb, ktbrr := k.ktbrr }) ∧
           (off = 0 → (s.kvFull = true ∨ s.me.ktbPut sid blk none s.nextId = none) → stalls (.kvapp d a b z)))))) ∧
    (s.ready [.x d.toNat] = true →
      (s.kvFull = false → queues (.flpop d) (s.plusKv .pop)) ∧ (s.kvFull = true → stalls (.flpop d))) ∧
    (s.ready [.x a.toNat, .x d.toNat] = true →
      let idx := fieldW (s.X a) 23 0
      (s.kvcnt ≤ idx → exec (.flpush d a) s = s.trap 0x205 (w64 idx)) ∧
      (idx < s.kvcnt → (s.kvFull = false → queues (.flpush d a) (s.plusKv (.push idx))) ∧
        (s.kvFull = true → stalls (.flpush d a)))) ∧
    (s.ready [.x a.toNat, .x b.toNat] = true →
      let idx := fieldW (s.X b) 23 0
      let cur := (ktbFind s.me.ktb (keySid (s.X a)) (keyBlock (s.X a))).bind (ktbAt s.me.ktb)
      (s.kvcnt ≤ idx → exec (.ktbfill a b) s = s.trap 0x205 (w64 idx)) ∧
      (idx < s.kvcnt →
        (∀ k, cur = some k → k.idx = none → stalls (.ktbfill a b)) ∧
        (∀ c, (∀ k, cur = some k → k.idx ≠ none) → s.me.ktbPut (keySid (s.X a)) (keyBlock (s.X a)) (some idx) 0 = some c →
          exec (.ktbfill a b) s = .next (s.setCol s.cur c).done))) ∧
    (let inv := fun (i : Instr) (f : Ktb → Prop) [DecidablePred f] =>
       ((∃ e ∈ s.me.ktb, f e.2 ∧ e.2.idx = none) → stalls i) ∧
       ((∀ e ∈ s.me.ktb, f e.2 → e.2.idx ≠ none) →
         exec i s = .next (s.modMe (fun c => { c with ktb := c.ktb.filter (fun e => decide (¬f e.2)) })).done)
     inv .ktbinvAll (fun _ => True) ∧
     (s.ready [.x a.toNat] = true →
       inv (.ktbinvSeq a) (fun e => e.sid = keySid (s.X a)) ∧
       inv (.ktbinvOne a) (fun e => e.sid = keySid (s.X a) ∧ e.b = keyBlock (s.X a)))) ∧
    (let sid := ssSid (s.X b)
     let lay := ssLayer (s.X b)
     let pos := ssPos (s.X b)
     (abd → (∀ x, engAddr s.cur (s.X a) ownRaw 64 4096 = .error x →
         exec (.ssld d a b) s = s.trap x.1 x.2 ∧ exec (.ssst d a b sn) s = s.trap x.1 x.2) ∧
       (∀ c, engAddr s.cur (s.X a) ownRaw 64 4096 = .ok c → s.ssFull = false →
         (s.mxWait true (lsLocs s.cur c.off 4096) = false → queues (.ssld d a b) (s.plusSs (.load c.off sid lay))) ∧
         (s.mxWait false (lsLocs s.cur c.off 4096) = false →
           queues (.ssst d a b sn) (s.plusSs (.store c.off sid lay pos (sn == 1))))) ∧
       (s.ssFull = false → queues (.ssfork d a b) (s.plusSs (.fork (fieldW (s.X a) 19 0) sid lay pos))) ∧
       (s.ssFull = true → stalls (.ssfork d a b))) ∧
     (s.ready [.x b.toNat, .x d.toNat] = true → s.ssFull = false →
       queues (.ssnap d b) (s.plusSs (.snap sid lay)) ∧ queues (.ssroll d b) (s.plusSs (.roll sid lay pos)) ∧
       queues (.ssdrop d b) (s.plusSs (.drop sid))) ∧
     (s.ready [.x b.toNat, .x d.toNat] = true → s.ssFull = true →
       stalls (.ssnap d b) ∧ stalls (.ssroll d b) ∧ stalls (.ssdrop d b)))

/-- The copy port and the templates (R307, R311, R315, R317, R318): the port takes the command of the highest band, which
suspends one of a lower band; a raw copy writes its source bytes to its destination, then its stamp, and its token is its
length, in its register or kept for its template; a copy whose page faults parks; an armed template takes its trigger and
queues its copy; its completion message enters the injection queue and its trigger's slots are freed. That the firing of a
template whose REARM is clear disarms it at once is log 66 (R318 puts it at the completion), that all accesses still to be made
are made by the completing event log 63, which command the port takes log 67: the model's choices. -/
def Obligations.CopyPort : Prop :=
  (∀ (s : State) (p : Nat) (k : CCmd), (s.col p).copyBest (fun j => s.cmdHeld p j.band j.id) = some k →
     let taken := fun (r : List CCmd) => exec (.copyStart p) s = .next (s.setCol p { (s.col p).dropCopy k.id with
       crun := some k, csusp := ((s.col p).dropCopy k.id).csusp ++ r }).done
     ((s.col p).crun = none → taken []) ∧ (∀ r, (s.col p).crun = some r → r.band < k.band → taken [r.yield])) ∧
  (∀ (s : State) (p : Nat) (k : CCmd) (dst src : Word) (len o : Nat) (stamp : Option Nat) (x : Sides),
     (s.col p).crun = some k → k.parked = none → k.op = .cpy dst src len stamp o → (o = 4 → s.hostPending p = false) →
     copyCheck p dst src len stamp.isSome = .ok x →
     (∀ u : Tlb, k.flow = Flow.start → s.clean →
       (∀ a w, x.global = some (a, w) → u.cmp = false ∧ (w = true → u.w = true) ∧
         (∀ i, i < len + (if w && stamp.isSome then 8 else 0) → s.cachedE (dieOf p) (a + i) = some u) ∧
         (w = false → ∀ g, g < len / 8 → s.inBacking p (a + 8 * g) ((List.range 8).map (u.loc (a + 8 * g)).add) = false)) →
       ∃ t, exec (.copyComplete p) s = .next t ∧ (t.col p).crun = none ∧
         (k.tmpl = none → s.Binds p k.band k.id (BitVec.ofNat 512 len) t) ∧
         (∀ n, k.tmpl = some n → ((s.col p).tpl n).running = some k.id → ((t.col p).tpl n).token = some (w64 len)) ∧
         (∀ i, i < len → t.rd (x.d.byteAt u i) = s.rd (x.s.byteAt u i)) ∧
         (∀ v, stamp = some v → ∀ i, i < 8 → t.rd (x.d.byteAt u (len + i)) = (leBytes 8 v).getD i 0) ∧
         (∀ l, (∀ i, i < len + (if stamp.isSome then 8 else 0) → l ≠ x.d.byteAt u i) → t.rd l = s.rd l)) ∧
     (let r := s.copyJob p k x len
      let m := r.2.run { st := s, flow := { k.flow with mode := r.1 }, fault := none }
      ∀ e, oddLen r.1 len = false → m.fault = some e → (e.1 = 0x108 ∨ e.1 = 0x109) →
        ∃ t, exec (.copyComplete p) s = .next t ∧ (∀ l, t.rd l = m.st.rd l) ∧
          (t.col p).crun = some { ({ k with flow := m.flow } : CCmd).yield with parked := some e })) ∧
  (∀ (s : State) (p n v : Nat) (it : Item) (rest : List Item) (x : Sides),
     let c := s.col p
     let tp := c.tpl n
     let ch := c.chan tp.trig
     let out := c.out tp.doneKey
     let ds := offsetSides p (if bitN v 164 then w64 (it.msg.payNat 0 8) else 0) (descDst v) (descSrc v)
     tp.desc = some v → ch.items = it :: rest → tp.running = none → it.taken = none → it.msg.kind = 0 →
     (out.paced = true → 0 < out.credit) → copyCheck p ds.1 ds.2 (descLen v) (bitN v 160) = .ok x →
     oddLen (s.copyKind p x (descLen v)) (descLen v) = false →
     ∃ t k, exec (.templateFire p n) s = .next t ∧ (t.col p).copyq = c.copyq ++ [k] ∧ k.band = fieldN v 167 166 ∧
       k.tmpl = some n ∧ k.id = s.nextId ∧ k.flow = Flow.start ∧ k.parked = none ∧
       k.op = .cpy ds.1 ds.2 (descLen v) (if bitN v 160 then some (fieldN v 223 192) else none) (fieldN v 163 161) ∧
       ((t.col p).tpl n).running = some s.nextId ∧ ((t.col p).tpl n).hdr = it.msg.header ∧
       ((t.col p).tpl n).desc = (if bitN v 165 then some v else none) ∧
       ((t.col p).chan tp.trig).items = { it with taken := some (8 + n) } :: rest ∧
       ((t.col p).out tp.doneKey).credit = (if out.paced then out.credit - 1 else out.credit)) ∧
  (∀ (s : State) (p n : Nat) (w : Word), let c := s.col p
     let tp := c.tpl n
     tp.token = some w → c.inj.length < 32 →
     ∃ t m, exec (.templateComplete p n) s = .next t ∧ (t.col p).inj = c.inj ++ [.msg m (c.out tp.doneKey).scope] ∧
       m.dest = tp.doneKey / 128 ∧ m.chan = tp.doneKey % 128 ∧ m.kind = 0 ∧ m.len = 0 ∧ m.src = p ∧
       m.seq = (c.out tp.doneKey).seq ∧ m.pay = leBytes 8 w.toNat ++ leBytes 8 tp.hdr.toNat ++ List.replicate 40 0 ∧
       ((t.col p).tpl n).running = none ∧ ((t.col p).tpl n).token = none ∧
       ((t.col p).chan tp.trig).items = (c.chan tp.trig).items.filter (fun i => !(i.taken == some (8 + n))))

/-- The layer-swap engine (R124, R125, R320, R321): it accepts or refuses the next command of a column; the oldest command of
its column and handle starts, a fill or refill clearing VALID, a relocation setting MOVING; a raw fill or refill writes the
source bytes into the handle's bytes that it names, a relocation copies the contents and switches the handle; then it is
stamped, and a fill or refill that has not failed sets VALID. -/
def Obligations.LayerSwap : Prop :=
  (∀ (s : State) (p v : Nat) (k : CCmd), (s.col p).lswapNext (fun j => s.cmdHeld p j.band j.id) = some (k, v) →
     (s.lseList (dieOf p)).length < 64 → s.proctor.power = .run →
     (s.lseReason v = none → dieOf (lCol v % 256) = dieOf p → ∃ t e, exec (.lseAccept p) s = .next t ∧
       t.lseList (dieOf p) = s.lseList (dieOf p) ++ [e] ∧ e.desc = v ∧ e.col = lCol v % 256 ∧ e.h = lHandle v ∧
       e.stamp = some (lStamp v) ∧ e.owner = p ∧ e.started = false ∧
       s.Binds p k.band k.id (BitVec.ofNat 512 1) t ∧ (t.col p).copyq = ((s.col p).dropCopy k.id).copyq) ∧
     (∀ r, s.lseReason v = some r → ∃ t, exec (.lseAccept p) s = .next t ∧ t.lse = s.lse ∧
       s.Binds p k.band k.id (BitVec.ofNat 512 (2 + 2 ^ 8 * r)) t)) ∧
  (∀ (s : State) (d n : Nat) (k : LCmd), (s.lseList d)[n]? = some k → k.failed = false → k.parked = none →
     k.switched = false → s.proctor.power = .run →
     let h := (s.col k.col).handle k.h
     let base := fieldN k.desc 243 233
     let at_ := fieldN k.desc 226 224 * 2 ^ 23 + base * 4096
     let starts := fun (i : Instr) (g : Handle) => ∃ t, exec i s = .next t ∧ (t.col k.col).handle k.h = g ∧
       t.lseList d = setAt (s.lseList d) n { k with started := true }
     let first := (s.lsePair k.col k.h).head?.map (·.id) = some k.id
     (k.started = false → lOp k.desc = 0 → s.lseReady k = true → starts (.lseFill d n)
       { h with layer := fieldN k.desc 226 224, form := fieldN k.desc 228 227, fmt := fieldN k.desc 232 229, base := base,
                len := fieldN k.desc 255 244, valid := false }) ∧
     (k.started = false → lOp k.desc = 1 → s.lseReady k = true → starts (.lseRefill d n) { h with valid := false }) ∧
     (k.started = false → lOp k.desc = 2 → first → s.proctor.rtPause.contains d = false →
       starts (.lseRelocate d n) { h with moving := true }) ∧
     (∀ sl : Nat → Loc, k.started = true → s.proctor.rtPause.contains d = false → lOp k.desc ≤ 1 → k.flow = Flow.start →
       s.gdFlip = [] → h.inuse = 0 → s.lseKind k = .ok 0 →
       let r := s.lseRange k
       let src := s.lseSource k + r.1
       (∀ g, g < (r.2 - r.1) / 8 → s.reach (dieOf k.col) 6 (src + 8 * g) false = .ok (sl g) ∧
         s.inBacking k.col (src + 8 * g) ((List.range 8).map (sl g).add) = false) →
       ∃ t f, exec (if lOp k.desc = 0 then .lseFill d n else .lseRefill d n) s = .next t ∧
         (∀ g i, g < (r.2 - r.1) / 8 → i < 8 →
           sget 0 (t.col k.col).stack (h.at_ + r.1 + 8 * g + i) = s.rd ((sl g).add i)) ∧
         (∀ a, (a < h.at_ + r.1 ∨ h.at_ + r.2 ≤ a) → sget 0 (t.col k.col).stack a = sget 0 (s.col k.col).stack a) ∧
         t.lseList d = setAt (s.lseList d) n { k with flow := f, bad := false, switched := true }) ∧
     (k.started = true → lOp k.desc = 2 → s.proctor.rtPause.contains d = false →
       ∃ t, exec (.lseRelocate d n) s = .next t ∧
         (t.col k.col).handle k.h = { h with layer := fieldN k.desc 226 224, base := base, moving := false } ∧
         (h.layer, h.base, h.len, (s.col k.col).cycle + 12) ∈ (t.col k.col).areas ∧
         (∀ i, i < h.len * 4096 → sget 0 (t.col k.col).stack (at_ + i) = sget 0 (s.col k.col).stack (h.at_ + i)) ∧
         t.lseList d = setAt (s.lseList d) n { k with switched := true })) ∧
  (∀ (s : State) (d n : Nat) (k : LCmd), (s.lseList d)[n]? = some k → k.parked = none → s.proctor.power = .run →
     (k.switched = true ∨ k.failed = true) → (s.lsePair k.col k.h).head?.map (·.id) = some k.id →
     let h := (s.col k.col).handle k.h
     let status := if k.failed then 2 else if k.bad then 1 else 0
     let ends := fun (f : State → Prop) => ∃ t, exec (.lseComplete d n) s = .next t ∧
       (k.failed = false → t.lseList d = dropAt (s.lseList d) n) ∧ (t.lseList d).length + 1 = (s.lseList d).length ∧
       (t.col k.col).handle k.h =
         (if k.failed = true ∨ lOp k.desc = 2 then h else { h with valid := true, src := some (s.lseSource k) }) ∧ f t
     (k.stamp = none → ends (fun t => ∀ l, t.rd l = s.rd l)) ∧
     (∀ a c, k.stamp = some a → decodeAddr k.owner a = some c →
       (c.glob = false → ends (fun t => t.rdNat (.ls c.col c.off) 8 = fieldN k.desc 223 192 + 2 ^ 32 * status)) ∧
       (∀ l, c.glob = true → s.reach d 6 c.off true = .ok l →
         ends (fun t => t.rdNat l 8 = fieldN k.desc 223 192 + 2 ^ 32 * status))))

/-- The KV engine, the free list and the walk (R323, R327, R437, R438): an append that has a pending entry of its own takes the
index at the head of the free list for it, an index out of range ending it with 0x205; an append whose block is known writes its
entry where the block lies and ends with its token; FLPOP takes the index at the head, FLPUSH puts one at the tail, and an empty or full
list answers so; a walk that ends in a translation enters the column's and the die's cache, one that faults enters
neither. That a walk's entry stands first in a cache and the oldest leaves it is log 120, that no command held back by an order
and no operation stopped before it is in the way (R29, R145) is a premise. -/
def Obligations.KvFreeList : Prop :=
  (∀ (s : State) (p : Nat) (k : KCmd) (q : List KCmd), (s.col p).kvq = k :: q → k.parked = none →
     s.cmdHeld p k.band k.id = false → s.flStuck = none → s.flPushes = [] →
     (∀ src sid b o z base l, k.op = .append src sid b o z base true none → 0 < s.flCount → s.flParked = [] →
       s.reach 0 5 (s.ringVa 0) false = .ok l →
       let idx := s.rdNat l 4 % 2 ^ 24
       ∃ t, exec (.kvappComplete p) s = .next t ∧ t.flCount = s.flCount - 1 ∧ (∀ m, t.rd m = s.rd m) ∧
         (idx < s.kvcnt → (t.col p).kvq.head? =
             some { k with op := .append src sid b o z base true (some idx), parked := none } ∧
           ∀ x ∈ (s.col p).ktb, x.2.idx = none → x.2.owner = k.id → (x.1, { x.2 with idx := some idx }) ∈ (t.col p).ktb) ∧
         (s.kvcnt ≤ idx → s.Defers p k.band ⟨k.id, 0x205, 1, w64 idx, k.tepc, false⟩ t)) ∧
     (∀ src sid b o z base mine idx u, k.op = .append src sid b o z base mine (some idx) → k.flow = Flow.start →
       (mine = true → base = 0 ∨ k.tab = true) →
       let e := 64 * 2 ^ z
       let ea := s.kvbase + 4096 * idx + e * o
       ea + e ≤ 2 ^ 47 → (∀ i, i < e → s.cachedE (dieOf p) (ea + i) = some u) → u.cmp = false → u.w = true → (s.col p).lsFlip = [] →
       ∃ t, exec (.kvappComplete p) s = .next t ∧ (t.col p).kvq = q.filter (fun j => decide (j.id ≠ k.id)) ∧
         s.Binds p k.band k.id (BitVec.ofNat 512 (idx + 2 ^ 24 * b + 2 ^ 40 * o + 2 ^ 52 * b2n mine)) t ∧
         (∀ i, i < e → t.rd (u.loc (ea + i)) = s.rd (.ls p (src + i))) ∧
         (∀ l, (∀ i, i < e → l ≠ u.loc (ea + i)) → t.rd l = s.rd l)) ∧
     (k.op = .pop →
       (s.flCount = 0 → ∃ t, exec (.freeListOperation p) s = .next t ∧
         s.Binds p k.band k.id (BitVec.ofNat 512 (2 ^ 31)) t ∧ t.flCount = 0) ∧
       (∀ l, 0 < s.flCount → s.flParked = [] → s.reach 0 5 (s.ringVa 0) false = .ok l →
         ∃ t, exec (.freeListOperation p) s = .next t ∧ t.flCount = s.flCount - 1 ∧
           (0 < s.kvcnt → t.flHead = (s.flHead + 1) % s.kvcnt) ∧ (∀ m, t.rd m = s.rd m) ∧
           s.Binds p k.band k.id (BitVec.ofNat 512 (s.rdNat l 4 % 2 ^ 24 + 2 ^ 32 * (s.flCount - 1))) t)) ∧
     (∀ idx, k.op = .push idx →
       (s.kvcnt ≤ s.flCount → ∃ t, exec (.freeListOperation p) s = .next t ∧ t.flCount = s.flCount ∧
         s.Binds p k.band k.id (BitVec.ofNat 512 (2 ^ 31 + 2 ^ 32 * s.flCount)) t) ∧
       (∀ l, s.flCount < s.kvcnt → s.reach 0 5 (s.ringVa s.flCount) true = .ok l →
         ∃ t, exec (.freeListOperation p) s = .next t ∧ t.flCount = s.flCount + 1 ∧ t.rdNat l 4 = idx % 2 ^ 24 ∧
           (∀ m, (∀ i, i < 4 → m ≠ l.add i) → t.rd m = s.rd m) ∧
           s.Binds p k.band k.id (BitVec.ofNat 512 (2 ^ 32 * (s.flCount + 1))) t))) ∧
  (∀ (s : State) (p va : Nat) (wr : Bool),
     (∀ u, s.walk (va % 2 ^ 47) wr = .leaf u → ∃ t, exec (.translationWalk p va wr) s = .next t ∧
       (t.col p).tlb = (u :: (s.col p).tlb).take 64 ∧
       sget [] t.dieTlb (dieOf p) = (u :: sget [] s.dieTlb (dieOf p)).take 4096) ∧
     (∀ c lv, s.walk (va % 2 ^ 47) wr = .fault c lv → exec (.translationWalk p va wr) s =
       .next (s.countWalk (va % 2 ^ 47)).done))

/-- The state store (R330, R331): the command taken up next is performed at its block's home and its token written. A load
gives the state and its position, zeros where there is none, and then writes its area; a store of a position at or above the
block's keeps its area's bytes and may take a snapshot, one below it ends in 0x208; SSNAP and SSROLL take and return to a
snapshot; a fork and a drop act layer by layer. That each event of a fork or drop takes one layer, and that the token follows the
last, is log 121, that a store's unit is judged before its snapshot log 75, which requests reach no unit log 140: the model's
choices. -/
def Obligations.StateStore : Prop :=
  ∀ (s : State) (p d : Nat) (k : SCmd), (s.ssNext p).1 = some (k, d) →
    let q := (s.col p).ssq
    let left := q.filter (fun j => decide (j.id ≠ k.id))
    let runs := fun (f : State → Prop) => ∃ t, exec (.stateStoreCommand p) s = .next t ∧ f t
    let ends := fun (token : Nat) (f : State → Prop) =>
      runs (fun t => (t.col p).ssq = left ∧ s.Binds p k.band k.id (BitVec.ofNat 512 token) t ∧ f t)
    let goesOn := fun (j : SCmd) (t : State) => (t.col p).ssq = q.map (fun x => if x.id = k.id then j else x)
    (∀ area sid lay, k.op = .load area sid lay →
      (let holds := fun (bs : List Byte) (token : Nat) => runs (goesOn { k with
          flow := { k.flow with got := (List.range 512).map (fun g => (g, (bs.drop (8 * g)).take 8)) }, res := some token })
       k.res = none →
        (s.sblock sid lay = none → holds (List.replicate 4096 0) (2 ^ 32)) ∧
        (∀ b l, s.sblock sid lay = some b → s.reach (homeDie sid lay) 4 (s.ssbase + 4096 * b.unit) false = .ok l →
          holds (s.unitBytes b.unit) b.pos)) ∧
      (∀ token bs, k.res = some token → bs.length = 4096 → k.flow.put = [] →
        k.flow.got = (List.range 512).map (fun g => (g, (bs.drop (8 * g)).take 8)) →
        ends token (fun t => t.rdBytes (.ls p area) 4096 = bs ∧
          ∀ l, (∀ i, i < 4096 → l ≠ .ls p (area + i)) → t.rd l = s.rd l))) ∧
    (∀ area sid lay pos sn, k.op = .store area sid lay pos sn →
      (∀ b, s.sblock sid lay = some b → pos < b.pos → runs (fun t => t.blocks = s.blocks ∧
        s.Defers p k.band ⟨k.id, 0x208, 1, w64 (pos + 2 ^ 32 * b.pos), k.tepc, false⟩ t)) ∧
      (s.stateUnit (s.sblock sid lay) = none → (∀ b, s.sblock sid lay = some b → b.pos ≤ pos) →
        ends (pos + 2 * 2 ^ 32) (fun t => t.blocks = s.blocks)) ∧
      (∀ u l, s.stateUnit (s.sblock sid lay) = some u → (∀ b, s.sblock sid lay = some b → b.pos ≤ pos) →
        s.reach (homeDie sid lay) 4 (s.ssbase + 4096 * u) true = .ok l → k.flow = Flow.start → (s.col p).lsFlip = [] →
        let b : SBlock := { sid := sid, layer := lay, pos := pos, unit := u, snaps := (s.sblock sid lay).elim [] (·.snaps) }
        ends pos (fun t => t.sblock sid lay = some (if sn then b.snapshot else b) ∧
          t.unitBytes u = s.rdBytes (.ls p area) 4096 ∧ ∀ m, t.rd m = s.rd m))) ∧
    (∀ sid lay, k.op = .snap sid lay →
      (s.sblock sid lay = none → ends (2 ^ 32) (fun t => t.blocks = s.blocks)) ∧
      (∀ b, s.sblock sid lay = some b → ends b.pos (fun t => t.sblock sid lay = some b.snapshot))) ∧
    (∀ sid lay pos, k.op = .roll sid lay pos →
      (s.sblock sid lay = none → ends (2 ^ 32) (fun t => t.blocks = s.blocks)) ∧
      (∀ b, s.sblock sid lay = some b → b.newest pos = none → ends (b.pos + 2 ^ 32) (fun t => t.blocks = s.blocks)) ∧
      (∀ b x, s.sblock sid lay = some b → b.newest pos = some x → ends x.1 (fun t => t.sblock sid lay =
        some { b with pos := x.1, unit := x.2, snaps := b.snaps.filter (fun y => decide (y.1 ≤ x.1)) }))) ∧
    (∀ new sid lay pos, k.op = .fork new sid lay pos →
      (k.todo = none →
        (s.seqBlocks new ≠ [] → ends (pos + 3 * 2 ^ 32) (fun t => t.blocks = s.blocks)) ∧
        (s.seqBlocks new = [] → s.seqBlocks sid = [] → ends (pos + 2 ^ 32) (fun t => t.blocks = s.blocks)) ∧
        (s.seqBlocks new = [] → s.seqBlocks sid ≠ [] → runs (fun t => t.blocks = s.blocks ∧
          goesOn { k with todo := some ((s.seqBlocks sid).map (·.layer), 0, 0) } t))) ∧
      (∀ w n missed, k.todo = some (w, n, missed) → (∃ x ∈ w, homeDie sid x = d ∨ homeDie new x = d) →
        ∃ x ∈ w, (homeDie sid x = d ∨ homeDie new x = d) ∧
        (let rest := w.filter (fun y => decide (y ≠ x))
         let now := fun (n' missed' : Nat) (f : State → Prop) =>
           (rest ≠ [] → runs (fun t => f t ∧ goesOn { k with todo := some (rest, n', missed') } t)) ∧
           (rest = [] → ends (pos + 2 ^ 32 * (if missed' = 0 ∧ n' ≠ 0 then 0 else 1) + 2 ^ 40 * n') f)
         (s.sblock sid x = none → now n missed (fun t => t.blocks = s.blocks)) ∧
         (∀ b, s.sblock sid x = some b →
           (b.newest pos = none → now n (missed + 1) (fun t => t.blocks = s.blocks)) ∧
           (∀ y, b.newest pos = some y →
             now (n + 1) missed (fun t => t.sblock new x = some ⟨new, x, y.1, y.2, [y]⟩)))))) ∧
    (∀ sid, k.op = .drop sid →
      (k.todo = none →
        (s.seqBlocks sid = [] → ends (2 ^ 32) (fun t => t.blocks = s.blocks)) ∧
        (s.seqBlocks sid ≠ [] → runs (fun t => t.blocks = s.blocks ∧
          goesOn { k with todo := some ((s.seqBlocks sid).map (·.layer), 0, 0) } t))) ∧
      (∀ w n m, k.todo = some (w, n, m) → (∃ x ∈ w, homeDie sid x = d) → ∃ x ∈ w, homeDie sid x = d ∧
        (let rest := w.filter (fun y => decide (y ≠ x))
         let n' := n + (if (s.sblock sid x).isSome then 1 else 0)
         let gone := fun (t : State) => t.blocks = s.blocks.filter (fun b => decide (b.sid ≠ sid ∨ b.layer ≠ x))
         (rest ≠ [] → runs (fun t => gone t ∧ goesOn { k with todo := some (rest, n', 0) } t)) ∧
         (rest = [] → ends (2 ^ 32 * (if n' = 0 then 1 else 0) + 2 ^ 40 * n') gone))))

/-! ## Firings -/

/-- A firing from start to end (R35 to R39, R42, R43, R46 to R49): selection starts the handler it picks, with its entry
state, the argument and trigger in x1 and x2, its credit taken and the band's other registers kept; a resumed firing goes on
where it was, its matrix commands ahead of the others; either issues from the fourth cycle on; FIRING_COMMIT, with nothing outstanding and room for what it sends,
frees what it took, counts its task counter and ends the firing; FIRING_ABORT gives the takes back, holds the handler and
reports the trap. Memory stays as it is but for the counter, while no matrix command has a row half written. That the
fault record is made at FIRING_ABORT is the model's choice (log 29), as is what entry and end leave in the registers (logs
24, 46), the matrix commands of all lower bands going to their save areas (log 45), the handler's trigger word without a
message (log 38) and the saturated counter (log 82). -/
def Obligations.FiringSteps : Prop :=
  let whole := fun (s : State) (p : Nat) => ∀ m, (s.col p).mrun = some m → m.out = []
  (∀ (s : State) (p h : Nat) (e : Entry), s.select p = .start h → (s.col p).entry h = some e →
     (s.col p).otherDue = false → (s.col p).stepping.getLsbD h = false →
     ∃ t f, exec (.firingStart p) s = .next t ∧ t.last = .issued ∧ (t.col p).running = some e.band ∧
       (t.col p).cycle = (s.col p).cycle + 4 ∧ (t.col p).firing e.band = some f ∧ f.ent = e ∧ f.pc = e.entry ∧
       f.jump = some 0 ∧ f.trig = (s.col p).tmsgOf e ∧
       f.phase = .run ∧ f.level = (s.col p).eff e ∧ f.boost = (s.col p).boost.getLsbD e.hidx ∧ f.spent = 0 ∧ f.sends = [] ∧
       (let k := (t.col p).bank e.band
        k.loop = none ∧ k.pend = [] ∧ k.readX 1 = w64 e.arg ∧ k.readX 2 = (s.col p).tmsgOf e ∧
        (∀ n, 3 ≤ n → k.readX n = ((s.col p).bank e.band).readX n) ∧
        (∀ n, k.readV n = ((s.col p).bank e.band).readV n ∧ k.readQ n = ((s.col p).bank e.band).readQ n)) ∧
       (t.col p).boost.getLsbD e.hidx = false ∧ (t.col p).rrOf ((s.col p).eff e) = e.hidx ∧
       ((e.paced.map (fun o => outKey o.dest o.ch)).Nodup → ∀ o ∈ e.paced,
         ((t.col p).out (outKey o.dest o.ch)).credit = ((s.col p).out (outKey o.dest o.ch)).credit - o.count) ∧
       (∀ q, q ≠ p → t.col q = s.col q) ∧ (whole s p → ∀ l, t.rd l = s.rd l)) ∧
  (∀ (s : State) (p b : Nat) (f : Firing), s.select p = .resume b → (s.col p).firing b = some f →
     (s.col p).otherDue = false → ∃ t, exec (.firingResume p) s = .next t ∧ t.last = .issued ∧ (t.col p).running = some b ∧
       (t.col p).cycle = (s.col p).cycle + 4 ∧ (t.col p).firing b = some { f with wait := none, park := none } ∧
       ((t.col p).bank b).saved = [] ∧
       (∀ n, ((t.col p).bank b).readX n = ((s.col p).bank b).readX n ∧
         ((t.col p).bank b).readV n = ((s.col p).bank b).readV n ∧
         ((t.col p).bank b).readQ n = ((s.col p).bank b).readQ n) ∧
       (t.col p).mq = ((s.col p).bank b).saved.map (fun m => { m with from_ := (s.col p).cycle + 1 }) ++
         (s.col p).mq.filter (fun m => decide (b ≤ m.band)) ∧
       (∀ q, q ≠ p → t.col q = s.col q) ∧ (whole s p → ∀ l, t.rd l = s.rd l)) ∧
  (∀ (s : State) (p b : Nat) (f : Firing), (s.col p).firing b = some f → (s.col p).endIds b = [] →
     (f.phase = .commit → (s.col p).running = some b → f.deferred = [] → s.loadsOut p b = false →
       (s.col p).inj.length + f.sends.length + (s.col p).snapCopies f.ent.hidx ≤ 32 → f.snap = false →
       ∃ t, exec (.firingCommit p b) s = .next t ∧ t.last = .issued ∧ (t.col p).running = none ∧
         (t.col p).inTrap = false ∧ (t.col p).firing b = none ∧
         (∀ i ∈ f.ent.ins, ∀ x ∈ ((t.col p).chan i.ch).items, x.taken ≠ some b) ∧
         (f.ent.task = false → ∀ l, t.rd l = s.rd l) ∧
         (f.ent.task = true → t.counter p f.ent = counterCommit (s.counter p f.ent) % 2 ^ 64 ∧
           ∀ l, (∀ k, k < 8 → l ≠ .ls p (f.ent.counter + k)) → t.rd l = s.rd l)) ∧
     (∀ cause path tval tepc hold, f.phase = .abort cause path tval tepc hold →
       ∃ t, exec (.firingAbort p b) s = .next t ∧ t.last = .issued ∧ (t.col p).firing b = none ∧
         (t.col p).tmsg = f.trig ∧ (∀ l, t.rd l = s.rd l) ∧
         (∀ i ∈ f.ent.ins, ∀ x ∈ ((t.col p).chan i.ch).items, x.taken ≠ some b) ∧
         (hold = true → f.ent.hidx < 64 → (t.col p).hold.getLsbD f.ent.hidx = true) ∧
         (hold = false → (t.col p).hold = (s.col p).hold) ∧
         (s.proctor.power ≠ .doze → t.notices = s.notices ++ (if silentCause cause then [] else
           [⟨cause, path, p, (s.col p).ctx, 0, tval, f.trig, tepc⟩]))))

/-- What falls due at a column (R50, R52, R53, R55, R80, R86 to R88, R103 to R106, R245, R246, R278, R435): the watchdog, the
starvation boost, deferred traps on either path and in the trap bank, the wait for an entry, the turn in which a waiting
word is read again, in any cycle for the own local store and in every 64th for another, decrements of task counters, markers
that pass, and captures with their records. Model's choices: the order of deferred traps (log 44), the group address of the
abort in the trap bank (log 23), the reading of an own word again in any cycle (log 34), that a channel
without an entry is reported once (log 129), when the alignment limit has passed and how its capture counts (log 83), what
sends a decrement (log 136). -/
def Obligations.BoundarySteps : Prop :=
  (∀ (s : State) (p b : Nat) (f : Firing), (s.col p).firing b = some f → (s.col p).running = some b → f.phase = .run →
     (f.ent.budget ≤ f.spent → ∃ t g, exec (.watchdogExpiry p b) s = .next t ∧ (t.col p).inTrap = false ∧
       (t.col p).cause = w64 (0x180 + 0x400) ∧ (t.col p).tval = w64 (f.pc % 2 ^ 20) ∧ (t.col p).firing b = some g ∧
       g.phase = .abort 0x180 1 (w64 (f.pc % 2 ^ 20)) (f.pc % 2 ^ 20) true ∧
       ((∀ m, (s.col p).mrun = some m → m.out = []) → ∀ l, t.rd l = s.rd l)) ∧
     (∀ d, (s.col p).inTrap = false → f.spent < f.ent.budget → oldest f.deferred = some d →
       (d.path = 0 → (s.col p).tvec.getLsbD 20 = true → ∃ t g, exec (.trapBankEntry p) s = .next t ∧
         t.cur = s.cur ∧ (t.col p).inTrap = true ∧ (t.col p).cause = w64 d.cause ∧ (t.col p).tval = d.tval ∧
         (t.col p).tepc = tepcWord d.tepc d.aw ∧ (t.col p).firing b = some g ∧ g.pc = (s.col p).tvec.toNat % 2 ^ 20 ∧
         g.deferred = f.deferred.filter (fun x => x != d)) ∧
       (d.path ≠ 0 → ∃ t g, exec (.deferredTrap p b) s = .next t ∧ t.cur = s.cur ∧ (t.col p).inTrap = false ∧
         (t.col p).cause = causeWord d.cause (abortPath d.cause) ∧ (t.col p).tval = d.tval ∧
         (t.col p).tepc = tepcWord d.tepc d.aw ∧ (t.col p).firing b = some g ∧
         g.phase = .abort d.cause (abortPath d.cause) d.tval (d.tepc % 2 ^ 20) true)) ∧
     (∀ d, (s.col p).inTrap = true → f.spent < f.ent.budget →
       oldest (f.deferred.filter (fun x => decide (f.trapFrom ≤ x.ord))) = some d →
       ∃ t g, exec (.deferredTrap p b) s = .next t ∧ t.cur = s.cur ∧ (t.col p).inTrap = false ∧
         (t.col p).cause = causeWord 0x186 1 ∧ (t.col p).tval = w64 d.cause ∧ (t.col p).tepc = tepcWord d.tepc d.aw ∧
         (t.col p).firing b = some g ∧ g.phase = .abort 0x186 1 (w64 d.cause) (d.tepc % 2 ^ 20) true)) ∧
  (∀ (s : State) (p h : Nat), h < 64 → 65536 ≤ sget 0 (s.col p).starve h → (s.col p).boost.getLsbD h = false →
     ∃ w, exec (.starvationBoost p h) s = .next (s.setCol p { s.col p with boost := w }).done ∧
       ∀ n, w.getLsbD n = ((s.col p).boost.getLsbD n || decide (n = h))) ∧
  (∀ (s : State) (p ch : Nat) (i : Item) (r : List Item), p < 256 → ((s.col p).chan ch).items = i :: r → (s.col p).owner ch = none →
     (s.col p).trigOf ch = none → (s.col p).emptyRep.contains ch = false → i.tick + 4096 ≤ s.pktCycle →
     ∃ t, exec (.emptyEntryTimeout p ch) s = .next t ∧ (t.col p).emptyRep = ch :: (s.col p).emptyRep ∧
       (s.proctor.power ≠ .doze → t.notices = s.notices ++ [⟨0x187, 3, p, (s.col p).ctx, 0, w64 ch, 0, 0⟩])) ∧
  (∀ (s : State) (p : Nat) (f : Firing) (h : Header) (w : Wait), (s.col p).firing (s.col p).band = some f → f.wait = some w →
     let again := ({ s with agenda := .issue p :: s.agenda } : State).done
     let due := fun (a : BitVec 5) =>
       (∃ k, decodeAddr p (((s.col p).bank (s.col p).bankIx).readX a.toNat) = some k ∧ k.isOwn = true) ∨
       ((s.col p).cycle - w.since) % 64 = 0
     (∀ d a b c z o, decodeWord (BitVec.ofNat 32 (s.mem32 p f.pc)) = .ok (h, .mwait d a b c z o) → due a →
       exec (.mwaitRead p) s = .next again) ∧
     (∀ d a b o, decodeWord (BitVec.ofNat 32 (s.mem32 p f.pc)) = .ok (h, .pbwait d a b o) → due a →
       exec (.pbwaitRead p) s = .next again)) ∧
  (∀ (s : State) (n p off amt : Nat) (f : Flight), s.flights[n]? = some f → f.msg.isDecrement p off amt = true →
     s.atPort n f = true → (∀ g ∈ s.flights.take n, g.msg.isDecrement p off amt = false) →
     let w := s.rdNat (.ls p off) 8
     let counts := amt ≠ 0 ∧ off % 8 = 0 ∧ off ≤ 0xFFFF8 ∧
       ∃ e, (s.col p).entry (fieldN w 61 56) = some e ∧ e.task = true ∧ e.counter = off
     f.msg.ctx = (s.col p).ctx →
     (counts → ∃ t, exec (.taskDecrement p off amt) s = .next t ∧ t.flights = dropAt s.flights n ∧
         t.rdNat (.ls p off) 8 = w / 2 ^ 32 * 2 ^ 32 + um 32 (satS 32 (sx 32 w - amt)) ∧
         ∀ l, (∀ k, k < 8 → l ≠ .ls p (off + k)) → t.rd l = s.rd l) ∧
     (¬counts → ∃ t, exec (.taskDecrement p off amt) s = .next t ∧ t.flights = dropAt s.flights n ∧ (∀ l, t.rd l = s.rd l) ∧
         (s.proctor.power ≠ .doze → t.notices = s.notices ++ [⟨0x284, 3, p, (s.col p).ctx, 0, w64 off, 0, 0⟩]))) ∧
  (∀ (s : State) (p ch : Nat) (i : Item) (e : Entry) (d : InDecl),
     let k := (s.col p).chan ch
     k.items = [i] → i.taken = none → i.msg.kind = 1 → k.gate = [] → (s.col p).trigOf ch = none →
     (s.col p).owner ch = some e → e.inOf ch = some d → (s.col p).joins = [] →
     (s.col p).inj.length + ((s.col p).markerOuts ch).length ≤ 32 →
     ∃ t, exec (.markerPass p ch) s = .next t ∧ ((t.col p).chan ch).items = [] ∧
       (t.col p).inj.length = (s.col p).inj.length + ((s.col p).markerOuts ch).length ∧
       t.credits = s.credits ++ [⟨k.producer, outKey p ch, i.msg.units⟩]) ∧
  (∀ (s : State) (p : Nat) (j : Join) (k : Capture), (s.col p).join j.jidx = some j → j.cap = some k → k.fired = false →
     let late := ((s.col p).joinIns j).filter (fun ch =>
       !((s.col p).chan ch).items.any (fun i => i.msg.kind == 2 && i.msg.snapId == k.snapId))
     let fires := fun (i : Instr) (q : Capture) (done : Nat) => ∃ t, exec i s = .next t ∧
       (t.col p).join j.jidx = some { j with cap := some q } ∧
       t.rdNat (.ls p j.area) 64 = (k.snapId + 2 ^ 32 * done + 2 ^ 33 * b2n q.unal + 2 ^ 34 * b2n k.ovf + 2 ^ 64 * k.units +
         2 ^ 80 * (j.units - 1)) % 2 ^ 512 ∧
       (∀ l, (∀ i, i < 64 → l ≠ .ls p (j.area + i)) → t.rd l = s.rd l)
     (k.ready = true → (∀ ch ∈ (s.col p).joinIns j, (s.col p).arrived k ch = true) →
       k.unal = false → fires (.snapshotAlignedCapture p j.jidx) { k with fired := true } 1) ∧
     (k.ready = false → k.since + j.limit ≤ s.pktCycle → fires (.alignmentLimitExpiry p j.jidx)
       { k with fired := true, unal := true, awaited := late } (b2n late.isEmpty)))

/-! ## The mesh and the host -/

/-- The mesh at work (R42, R59 to R67, R71, R75, R77, R87, R110, R154, R157, R424): messages, stores and wavefronts leave the
injection queue, a message as its route's filter leaves it; routers forward the head of a buffer into the next one that has
room and discard reserved kinds; a boundary node holds a message, and its probe is answered; a reduction combines its members'
messages or stops with 0x283, a carry admits an entry, each while nothing it emitted before stands in its buffer; a message
is delivered, held for its tag, or discarded as stale or overlong. Model's choices: that the cause of a dropped message writes
no column register (log 145; R107 and R433 differ), the messages of a reduction and its buffer (logs 79, 130, 147), the buffers
and their order (log 80). -/
def Obligations.MeshSteps : Prop :=
  (∀ (s : State) (p : Nat) (x : Inj) (q : List Inj), (s.col p).inj = x :: q →
     (∀ m sc r, (x = .msg m sc ∨ x = .marker m sc true) → s.routeTo m.ctx p m.dest m.chan = some r →
       ((s.col p).outOf m.ctx (outKey m.dest m.chan)).opened = true → s.storesDone p sc s.nextId = true →
       s.bufferRoom p p r.vc m.units = true →
       ∃ t f, exec (.messageInjection p) s = .next t ∧ t.flights = s.flights ++ [f] ∧ (t.col p).inj = q ∧
         f.msg = (s.filterMsg p r m).1 ∧ (r.filter = none → f.msg = m) ∧
         f.rt = r ∧ f.path = r.path ∧ f.vc = r.vc ∧ f.from_ = p ∧ ∀ c, c ≠ p → t.col c = s.col c) ∧
     (∀ m, x = .wave m → ∃ t, exec (.messageInjection p) s = .next t ∧ (t.col p).inj = q ∧
       t.wavefronts = s.wavefronts ++ [{ col := m.dest, src := p, chan := m.chan, ctx := m.ctx, seq := m.seq }]) ∧
     (∀ l ls tepc tmsg rel ctx id, x = .store (l :: ls) tepc tmsg rel ctx id →
       (rel.isSome = true → s.storesDone p 4 s.nextId = true) →
       ∃ t r, exec (.messageInjection p) s = .next t ∧ t.reqs = s.reqs ++ [r] ∧ r.op = .store l.2 ∧ r.va = l.1 ∧
         r.id = s.nextId ∧ r.col = p ∧ r.dst = none ∧ r.st = .sent ∧
         (t.col p).inj = (if ls = [] then q else .store ls tepc tmsg rel ctx id :: q) ∧ ∀ a, t.rd a = s.rd a)) ∧
  (∀ (s : State) (n : Nat) (f : Flight), s.flights[n]? = some f →
     let gone := dropAt s.flights n
     let drops := fun (i : Instr) (cause col : Nat) => ∃ t, exec i s = .next t ∧ t.flights = gone ∧ (∀ c, t.col c = s.col c) ∧
       (s.proctor.power ≠ .doze → t.notices = s.notices ++ [⟨cause, 3, col, (s.col col).ctx, 0, f.msg.header, 0, 0⟩])
     let p := f.msg.dest % 256
     (s.behind n f = false →
       (11 ≤ f.msg.kind → f.at_ < 256 → drops (.routerForward n) 0x286 f.at_) ∧
       (∀ sc, f.msg.kind < 11 → f.rt.bnd = some (f.at_, sc) → f.probe = 0 → exec (.routerForward n) s =
         .next ({ s with flights := setAt s.flights n { f with probe := 1 } } : State).done) ∧
       (∀ h nx r, f.msg.kind < 11 → f.rt.bnd = none → f.path = h :: nx :: r → h.stage = false →
         s.bufferRoom h.col nx.col f.vc f.units = true → s.linkBusy n h.col nx.col f.vc = false →
         ∃ t, exec (.routerForward n) s = .next t ∧
           t.flights = gone ++ [{ f with path := nx :: r, from_ := h.col }] ∧ ∀ c, t.col c = s.col c)) ∧
     (s.atPort n f = true → (∀ x, f.since = some x → x + 6400 ≤ s.pktCycle → s.claimed f = true) →
       let k := (s.col p).chan f.msg.chan
       (f.msg.ctx = (s.col p).ctx → f.msg.kind ≠ 3 →
         (k.slots < f.msg.units → drops (.messageDelivery n) 0x28B p) ∧
         (k.used + f.msg.units ≤ k.slots → ∃ t, exec (.messageDelivery n) s = .next t ∧ t.flights = gone ∧
           ((t.col p).chan f.msg.chan).items = k.items ++ [⟨f.msg, none, s.pktCycle, s.nextId + 1⟩])) ∧
       (f.msg.ctx ≠ (s.col p).ctx →
         (s.retired.contains (tagKey f.msg.ctx p) = true → drops (.messageDelivery n) 0x280 p) ∧
         (s.retired.contains (tagKey f.msg.ctx p) = false → f.since = none → exec (.messageDelivery n) s =
           .next ({ s with flights := setAt s.flights n { f with since := some s.pktCycle } } : State).done))) ∧
     (∀ at_, f.since = some at_ → at_ + 6400 ≤ s.pktCycle → s.claimed f = false → drops (.heldMessageTimeout n) 0x280 p) ∧
     (∀ b sc, f.rt.bnd = some (b, sc) → f.probe = 1 → (∀ o ∈ f.origins, s.storesDone o.1 sc o.2 = true) →
       exec (.boundaryProbeAnswer n) s = .next ({ s with flights := setAt s.flights n { f with probe := 2 } } : State).done) ∧
     (let key := stageKey f.rt.region f.at_ f.vc
      ∀ h r t0 o os, f.path = h :: r → h.stage = true → s.stageAt key = some t0 → t0.kind = 6 → some f.rt ≠ t0.loop →
       s.behind n f = false → t0.inflight ≤ t0.lim → t0.outs = o :: os → (∀ g ∈ s.flights, some g.rt ≠ t0.loop) →
       (∀ g ∈ gone, g.from_ = 256 + h.col → g.vc ≠ f.vc) →
       ∃ t g u, exec (.carryAdmit n) s = .next t ∧ t.flights = gone ++ [g] ∧ g.rt = o ∧ g.path = o.path ∧
         g.msg.seq = t0.seq ∧ g.msg.src = h.col ∧ (o.filter = none → g.msg.pay = f.msg.pay) ∧
         t.stageAt key = some u ∧ u.inflight = t0.inflight + 1)) ∧
  (∀ (s : State) (k : Nat) (t0 : Stage) (f : Flight) (fs : List Flight) (rest : List (Nat × Flight)) (o : Route)
     (os : List Route), s.stageAt k = some t0 → (t0.kind = 1 ∨ t0.kind = 2) → t0.stopped = false →
     takeAll (s.stageMembers t0) t0.waiting = some (f :: fs, rest) → t0.outs = o :: os →
     ((∃ g ∈ fs, g.msg.len ≠ f.msg.len) → ∃ t u, exec (.reductionStage k) s = .next t ∧ t.flights = s.flights ∧
       t.stageAt k = some u ∧ u.stopped = true ∧ (s.proctor.power ≠ .doze →
         t.notices = s.notices ++ [⟨0x283, 3, stageCol k, (s.col (stageCol k)).ctx, 0, w64 t0.group, 0, 0⟩])) ∧
     ((∀ g ∈ fs, g.msg.len = f.msg.len) → (∀ g ∈ s.flights, g.from_ = 256 + stageCol k → g.vc ≠ f.vc) →
       let w := if t0.efmt = 2 then 16 else 32
       let used := t0.e * w / 8
       ∃ t g u, exec (.reductionStage k) s = .next t ∧ t.flights = s.flights ++ [g] ∧ g.rt = o ∧ g.msg.seq = t0.seq ∧
         g.msg.src = stageCol k ∧ t.stageAt k = some u ∧ u.waiting = rest ∧
         (o.filter = none → f.msg.isMarker = false → (∀ x ∈ f :: fs, used ≤ x.msg.pay.length) →
           g.msg.pay.take used = leBytes used (packNat w ((List.range t0.e).map (fun i =>
             reduceElem t0.kind t0.efmt ((f :: fs).map (fun x => (unpack w t0.e x.msg.payload).getD i 0))))))))

/-- What arrives (R37, R61, R66, R101, R384, R427): an open gives an output its channel's slot count and, if paced, its initial
credit, once its column has come to the graph; credit adds to an output's; a fault notice becomes a record, or, where
the ring is full, is dropped and counted unless its cause is of class 0x300 (the model's range of that class, and its reading of
a ring that is off as full, are log 91); a configuration message writes the phase of its entry that no selection reads. -/
def Obligations.Arrivals : Prop :=
  ∀ (s : State) (n p key : Nat),
    (∀ o, s.opens[n]? = some o →
      (if o.direct then Feeder.col o.col o.key else s.feeder o.tag (o.key / 128) (o.key % 128)) = .col p key →
      (o.direct = true → (s.col o.col).ctx = o.tag) → (s.col p).ctx = o.tag → (s.col p).inj = [] →
      ∃ t, exec (.channelOpen n) s = .next t ∧ t.opens = dropAt s.opens n ∧
        (t.col p).out key = (let x := (s.col p).out key
          { x with opened := true, cap := o.cap, credit := if x.paced then o.credit else 0 })) ∧
    (∀ c, s.credits[n]? = some c → let tag := (s.col (p8 (c.key / 128))).ctx
      s.feeder tag (c.key / 128) (c.key % 128) = .col p key → (s.col p).inj = [] →
      ((s.col p).outOf tag key).paced = true →
      ∃ t, exec (.creditMessage n) s = .next t ∧ t.credits = dropAt s.credits n ∧
        ((tag = (s.col p).ctx ∨ (s.col p).prevOuts.any (fun x => x.1 == tag) = true) →
          (t.col p).outOf tag key = (let x := (s.col p).outOf tag key
            { x with credit := x.credit + c.n }))) ∧
    (∀ f, s.notices[n]? = some f → let k := s.rqOf 8
      (k.full = false → ∃ t, exec (.faultNotice n) s = .next t ∧ t.notices = dropAt s.notices n ∧
        t.rdNat (k.at_ (32 * (k.tail % 2 ^ k.log2n))) 32 = (f.word + 2 ^ 23 * b2n k.phase) % 2 ^ 256 ∧
        (t.rqOf 8).tail = (k.tail + 1) % 2 ^ 16 ∧
        (t.rqOf 8).phase = (if k.tail % 2 ^ k.log2n + 1 = 2 ^ k.log2n then !k.phase else k.phase)) ∧
      (k.full = true →
        let lost := if class300 f.cause then s.fqLost else min (s.fqLost + 1) 0xFFFFFFFF
        exec (.faultNotice n) s = .next ({ s with notices := dropAt s.notices n, fqLost := lost } : State).done)) ∧
    (∀ e, s.confs[n]? = some (.entry p e) →
      ∃ t, exec (.configurationMessage n) s = .next t ∧ t.confs = dropAt s.confs n ∧
        (t.col p).entry e.hidx = (s.col p).entry e.hidx ∧
        (let k := sget HSlot.empty (t.col p).handlers e.hidx
         (if k.phase then k.e0 else k.e1) = some e))

/-- Splicing (R55, R100 to R102, R384): a taken packet with OP 2 that the checks admit enters the successor beside its
predecessor; a wavefront brings its sender's last SEQ and the tag to come to a column of the predecessor, and nothing to one
that has switched already; a column whose wavefronts have come and whose
predecessor's messages are gone switches: it takes the successor's tag and region, or leaves its region. When messages have all
passed is the model's reading (log 86), as is which successor a packet's predecessor has come to mean (log 148). -/
def Obligations.Splice : Prop :=
  (∀ (s u : State) (q pk m : Nat) (b : List Byte) (pred : Region), s.take q (· == 2) = some (u, pk) →
     u.verdict q pk = .load m → u.cachedAt (pkImage pk) m = some b → u.predOf q (pkPred pk) = some pred →
     ∃ t r, exec (.spliceLaunch q) s = .next t ∧ t.regions = u.regions ++ [r] ∧ r.id = u.nextRegion ∧
       r.pred = some pred.ctx ∧ r.predId = pred.id ∧ r.queue = q ∧ t.nextRegion = u.nextRegion + 1) ∧
  (∀ (s : State) (n : Nat) (w : Wave), s.wavefronts[n]? = some w → let p := w.col % 256
     let mine := s.regions.any (fun r => r.ctx == w.ctx && r.pred.isSome && r.predId == (s.col p).region)
     ∃ t, exec (.spliceWavefront n) s = .next t ∧ t.wavefronts = dropAt s.wavefronts n ∧
       (mine = true → (t.col p).nextTag = w.ctx ∧ (t.col p).waves = (s.col p).waves ++ [(waveKey w.chan w.src, w.seq)]) ∧
       (mine = false → ∀ c, t.col c = s.col c)) ∧
  (∀ (s : State) (p : Nat) (r : Region) (l : Ld), s.maySwitch p = true →
     s.regions.find? (fun r => r.ctx == (s.col p).nextTag && r.predId == (s.col p).region) = some r →
     s.ldRegion r = some l →
     ∃ t, exec (.spliceSwitch p) s = .next t ∧ tagKey (s.col p).ctx p ∈ t.retired ∧
       (p ∈ l.cols → (t.col p).region = r.id ∧ (t.col p).ctx = r.ctx ∧ (t.col p).waves = [] ∧ (t.col p).nextTag = 0) ∧
       (p ∉ l.cols → (t.col p).region = 0 ∧ (t.col p).handlers = []))

/-- The host's queues (R411 to R416, R420, R421, R425 to R427): LQCTL, doorbells, the packets the dispatcher takes, image
fetches, the end of a graph, and the control and head registers of the record rings. Each is stated in the states in which
the host reaches the package. Model's choices: what a re-enable keeps and the doorbell's check while EN = 0 (log 92), the
conditions of a graph's end (log 77), which dies hold an image and when it is fetched (log 90), a record while the ring is
off (log 91). -/
def Obligations.HostQueues : Prop :=
  (∀ (s : State) (q : Nat) (v : Word), s.proctor.power ≠ .off → s.proctor.power ≠ .recovery → q < 64 →
     let k := s.lqOf q
     let n := v.toNat % 2 ^ 16
     (s.proctor.power = .boot → exec (.lqDoorbell q v) s = .next s.done) ∧
     (s.proctor.power ≠ .boot →
       (aheadOf n k.head ≤ 2 ^ k.log2n → ∃ t, exec (.lqDoorbell q v) s = .next t ∧ (t.lqOf q).tail = n ∧
         (t.lqOf q).err = k.err ∧ t.notices = s.notices) ∧
       (2 ^ k.log2n < aheadOf n k.head → ∃ t, exec (.lqDoorbell q v) s = .next t ∧ t.lqOf q = { k with err := true } ∧
         (s.proctor.power ≠ .doze → t.notices = s.notices ++ [⟨0x288, 3, 0x3FF, 0, 0, w64 (q + 2 ^ 16 * n), 0, 0⟩]) ∧
         (s.masked 9 = false → t.irqs = s.irqs ++ [9]) ∧ (s.masked 9 = true → t.irqs = s.irqs ∧ 9 ∈ t.pba))) ∧
     (v.getLsbD 5 = true → k.en = false → exec (.lqEnable q v) s = .next (s.setLq q { k with
       pri := fieldW v 7 6, log2n := log2nOf (fieldW v 3 0), loc := v.getLsbD 4, en := true, head := 0, tail := 0,
       seq := if k.pkt.isSome then k.seq else 0, err := false, dirty := [] }).done) ∧
     (v.getLsbD 5 = false → k.en = true →
       exec (.lqDisable q v) s = .next (s.setLq q { k with pri := fieldW v 7 6, en := false }).done)) ∧
  (∀ (s u : State) (q pk m : Nat) (b : List Byte), s.take q (· == 1) = some (u, pk) → u.verdict q pk = .load m →
     u.cachedAt (pkImage pk) m = some b →
     let l := u.ldOf pk b m
     ∃ t r, exec (.launch q) s = .next t ∧ t.regions = u.regions ++ [r] ∧ r.id = u.nextRegion ∧ r.queue = q ∧
       r.ctx = l.tag ∧ t.nextRegion = u.nextRegion + 1 ∧
       ∀ p ∈ l.cols, (t.col p).region = u.nextRegion ∧ (t.col p).ctx = l.tag ∧ (t.col p).running = none) ∧
  (∀ (s u : State) (q pk : Nat), s.take q (· == 3) = some (u, pk) → u.verdict q pk = .done 0 0 0 →
     (u.lqOf q).seq < 2 ^ 16 →
     ∃ t, exec (.noopPacket q) s = .next t ∧ u.Records (fieldN pk 14 12) q (u.lqOf q).seq 0 t ∧ t.notices = u.notices) ∧
  (∀ (s u : State) (q pk : Nat), s.take q (fun op => op == 0 || decide (3 < op)) = some (u, pk) →
     (u.lqOf q).seq < 2 ^ 16 →
     ∃ t l, exec (.badPacket q) s = .next t ∧ u.Records (fieldN pk 14 12) q (u.lqOf q).seq 2 t ∧
       (u.proctor.power ≠ .doze →
         t.notices = u.notices ++ ⟨0x289, 3, 0x3FF, 0, 0, w64 (q + 2 ^ 16 * (u.lqOf q).seq), 0, 0⟩ :: l) ∧
       ∀ x ∈ l, x.cause = 0x280) ∧
  (∀ (s : State) (q pk : Nat), let u := s.pull
     u.packetOf q = some pk → u.nextFetch = some q →
     (∀ st c v, u.verdict q pk = .reject st c v → c ≠ 0 → st < 2 ^ 8 → q < 64 → (u.lqOf q).seq < 2 ^ 16 →
       ∃ t l, exec (.imageFetch q) s = .next t ∧ t.cache = s.cache ∧ u.Records (fieldN pk 14 12) q (u.lqOf q).seq st t ∧
         (s.proctor.power ≠ .doze → t.notices = s.notices ++ ⟨c, 3, 0x3FF, 0, 0, v, 0, 0⟩ :: l) ∧ ∀ x ∈ l, x.cause = 0x280) ∧
     (∀ d, u.verdict q pk = .fetch [d] → (s.cache.filter (fun c => c.die == d)).length < 16 →
       let a := pkImage pk
       let b := s.rdBytes (.gd a) (imgLen (s.rdBytes (.gd a) 64))
       a + b.length ≤ s.capacity → imageCheck b s.proctor.chainPos = none →
       ∃ t, exec (.imageFetch q) s = .next t ∧ t.cache = s.cache ++ [⟨d, a, b, s.pktCycle, false⟩])) ∧
  (∀ (s : State) (n : Nat) (r : Region), s.regionOf n = some r →
     let ps := s.regionCols n
     let ends := fun (status : Nat) => ∃ t, exec (.graphEnd n) s = .next t ∧ (∀ x ∈ t.regions, x.id ≠ n) ∧
       (r.pred = none → ∀ p ∈ ps, (t.col p).region = 0) ∧
       (r.tag < 2 ^ 16 → r.queue < 64 → r.seq < 2 ^ 16 → s.Records r.cq r.queue r.seq status t)
     (r.dying = true → s.commandsLeft ps = false → (∀ p ∈ ps, ∀ b, b < 4 → (s.col p).firing b = none) → ends 4) ∧
     (r.dying = false → s.splicing r = true → ps = [] → s.sentLeft r = false → ends 5) ∧
     (r.dying = false → s.splicing r = false → r.endcnt ≠ 0 → r.endcnt ≤ r.commits → s.messagesLeft ps r.ctx = false →
       s.commandsLeft ps = false → ends 0)) ∧
  (∀ (s : State) (c : Nat) (v : Word), s.proctor.power ≠ .off → s.proctor.power ≠ .recovery → c ≤ 8 →
     (s.rqOf c).waiting = [] →
     let k := s.rqOf c
     (v.getLsbD 5 = true → k.en = false → exec (.recordRingEnable c v) s = .next (s.setRq c { k with
       ie := v.getLsbD 6, log2n := log2nOf (fieldW v 3 0), loc := v.getLsbD 4, en := true, head := 0, tail := 0,
       phase := true }).done) ∧
     (v.getLsbD 5 = false → k.en = true →
       exec (.recordRingDisable c v) s = .next (s.setRq c { k with ie := v.getLsbD 6, en := false }).done) ∧
     exec (.recordRingHeadWrite c v) s = .next (s.setRq c { k with head := v.toNat % 2 ^ 16 }).done)

/-- The host's registers and window (R130, R407 to R410, R420, R436): the engine regions, the driver's free-list push, a posted
descriptor, CCINV, PTROOT with its invalidation, reads and writes of BAR2 within its size, an AtomicOp, and other registers:
an unlisted offset discards the write. Model's choices: the report of a host push's bad index and a push to a full ring (log
74), a region written while one is loaded (log 144), the low bits of a base (log 10). A push that comes while the engine is
stopped on a page waits behind it (R29). -/
def Obligations.HostRegisters : Prop :=
  ∀ (s : State) (v : Word), s.proctor.power ≠ .off → s.proctor.power ≠ .recovery →
    let a := v.toNat % 2 ^ 47
    (exec (.engineRegionWrite 0 v) s = .next ({ s with kvbase := a } : State).done ∧
      exec (.engineRegionWrite 1 v) s =
        .next ({ s with kvcnt := v.toNat % 2 ^ 25, flHead := 0, flCount := 0 } : State).done ∧
      exec (.engineRegionWrite 2 v) s = .next ({ s with flbase := a, flHead := 0, flCount := 0 } : State).done ∧
      exec (.engineRegionWrite 3 v) s = .next ({ s with ssbase := a } : State).done ∧
      exec (.engineRegionWrite 4 v) s = .next ({ s with sslen := a } : State).done) ∧
    (let idx := v.toNat % 2 ^ 24
     (s.kvcnt ≤ idx → ∃ t, exec (.freeListHostPush v) s = .next t ∧ t.flCount = s.flCount ∧ (∀ l, t.rd l = s.rd l) ∧
       (s.proctor.power ≠ .doze → t.notices = s.notices ++ [⟨0x205, 3, 0x3FF, 0, 0, w64 idx, 0, 0⟩])) ∧
     (idx < s.kvcnt → s.fleStuck.isSome = true →
       exec (.freeListHostPush v) s = .next ({ s with flPushes := s.flPushes ++ [(idx, none)] } : State).done) ∧
     (idx < s.kvcnt → s.kvcnt ≤ s.flCount → s.flStuck = none → s.flPushes = [] → exec (.freeListHostPush v) s = .next s.done) ∧
     (∀ l, idx < s.kvcnt → s.flCount < s.kvcnt → s.flStuck = none → s.flPushes = [] → s.reach 0 5 (s.ringVa s.flCount) true = .ok l →
       ∃ t, exec (.freeListHostPush v) s = .next t ∧ t.flCount = s.flCount + 1 ∧ t.rdNat l 4 = idx ∧
         ∀ x, (∀ i, i < 4 → x ≠ l.add i) → t.rd x = s.rd x)) ∧
    (∀ d, d < 2 → let w := ({ s with lseWin := sput 0 s.lseWin (4 * d + 3) v.toNat } : State)
      let desc := w.winDesc d
      (dieOf (lCol desc % 256) = d → s.lseOk (lCol desc % 256) desc = true → exec (.lseHostPost d v) s =
        .next ({ w with lsePost := s.lsePost ++ [(d, desc)] } : State).done) ∧
      (dieOf (lCol desc % 256) ≠ d → ∃ t, exec (.lseHostPost d v) s = .next t ∧ t.lsePost = s.lsePost ∧
        (s.proctor.power ≠ .doze → t.notices = s.notices ++ [⟨0x202, 3, 0x3FF, 0, 0, w64 (2 + 2 ^ 16 * d), 0, 0⟩]))) ∧
    (∃ t, exec (.ccinvWrite v) s = .next t ∧ t.ccinv = a ∧
      ((∀ r ∈ s.regions, r.image ≠ a) → ∀ c ∈ t.cache, c.image ≠ a) ∧
      ∀ c ∈ s.cache, c.image ≠ a → c.doomed = false → c ∈ t.cache) ∧
    (∃ t, exec (.ptrootWrite v) s = .next t ∧ t.ptroot = v.toNat % 2 + v.toNat / 2 ^ 20 % 2 ^ 27 * 2 ^ 20 ∧
      t.dieTlb = [] ∧ (sorted none s.cols = true → ∀ p, (t.col p).tlb = [])) ∧
    (∀ o n, o + n ≤ 2 ^ s.bar2 → s.window + o + n ≤ s.capacity → s.blocks = [] → s.gdFlip = [] →
      s.barGot = [] → exec (.bar2Read o n) s = .next ({ s with
        hostReads := s.hostReads ++ [.data ((List.range n).map (fun i => s.rd (.gd (s.window + o + i))))],
        nextFree := s.nextFree + n } : State).done) ∧
    (∀ o (l : List Byte), o + l.length ≤ 2 ^ s.bar2 → s.window + o + l.length ≤ s.capacity → s.barPut = [] →
      ∃ t, exec (.bar2Write o l) s = .next t ∧ t.rdBytes (.gd (s.window + o)) l.length = l ∧
        ∀ x, (∀ i, i < l.length → x ≠ .gd (s.window + o + i)) → t.rd x = s.rd x) ∧
    exec .hostAtomicopRequest s = .next ({ s with hostReads := s.hostReads ++ [.unsupported] } : State).done ∧
    exec (.genericRegisterWrite 0x3010 v) s = .next ({ s with dwin := a } : State).done ∧
    exec (.genericRegisterWrite 0x5000 v) s = .next s.done ∧
    (∀ q, q < 64 → exec (.genericRegisterWrite (0x1000 + 32 * q) v) s =
      .next (s.setLq q ((s.lqOf q).setBase v.toNat)).done)

/-! ## The driver's actions and the Proctor -/

/-- Fault resolution (R46, R324, R437 to R439, R444 to R447): in the states in which the host reaches the package and while no
INVAL waits, RETRY lets a parked access go on, FAIL aborts the parked firing with its cause and, with COL 0x3FF, drops the
driver's push that has stopped, REFIRE aborts with 0x18E and no hold, RELEASE lets a held handler fire again, KILL aborts every firing
of its region with 0x18D, INVAL clears the translation caches and is BUSY while an access translated before it is outstanding,
STEP and RUN set and end step mode; a write made while BUSY has no effect. Model's choices: path 1 of 0x18D and 0x18E (log 30),
a KILL as one event (log 101), BUSY for INVAL alone (log 103), what the driver's pushes do (log 102), what RETRY, FAIL and REFIRE
do with the commands of a parked firing (logs 97 to 100). -/
def Obligations.FaultResolution : Prop :=
  ∀ (s : State) (v : Word), s.proctor.power ≠ .off → s.proctor.power ≠ .recovery →
    let a := fresAction v
    let h := fresHidx v
    (s.fresBusy = true → (a = 0 → exec (.retry v) s = .next s.done) ∧ (a = 1 → exec (.fail v) s = .next s.done) ∧
      (a = 2 → exec (.refire v) s = .next s.done) ∧ (a = 3 → exec (.release v) s = .next s.done) ∧
      (a = 4 → exec (.kill v) s = .next s.done) ∧ (a = 5 → exec (.inval v) s = .next s.done) ∧
      (a = 6 → exec (.step v) s = .next s.done) ∧ (a = 7 → exec (.run v) s = .next s.done)) ∧
    (s.fresBusy = false →
      (a = 5 → ∃ t, exec (.inval v) s = .next t ∧ t.dieTlb = [] ∧ (sorted none s.cols = true → ∀ p, (t.col p).tlb = []) ∧
        (∀ l, sorted none s.cols = true → t.rd l = s.rd l) ∧
        (sorted none s.cols = true → t.fresBusy = !s.translated.isEmpty)) ∧
      (a = 1 → fresCol v = 0x3FF → s.proctor.chainPos < 3 → ∃ t, exec (.fail v) s = .next t ∧ t.cols = s.cols ∧
        (s.fleStuck = some 0x3FF → t.flPushes.length < s.flPushes.length) ∧
        (s.fleStuck ≠ some 0x3FF → t.flPushes = s.flPushes)) ∧
      (a = 4 → s.killed v = none → ∃ t, exec (.kill v) s = .next t ∧ t.cols = s.cols ∧ t.regions = s.regions) ∧
      (∀ r, a = 4 → s.killed v = some r → sorted none s.cols = true → ∃ t, exec (.kill v) s = .next t ∧
        (∀ x ∈ t.regions, x.id = r.id → x.dying = true) ∧
        ∀ p ∈ s.regionCols r.id, (t.col p).handlers = [] ∧ (t.col p).inj = [] ∧
          ∀ b, b < 4 → ∀ f, (s.col p).firing b = some f → f.phase = .run → ∃ g, (t.col p).firing b = some g ∧
            g.phase = .abort 0x18D 1 0 (f.pc % 2 ^ 20) false ∧ g.sends = []) ∧
      (∀ p, s.namedCol v = some p →
        (a = 0 → fresCol v ≠ 0x3FF → ∃ t, exec (.retry v) s = .next t ∧ (∀ b, b < 4 → ∀ f c w, (s.col p).firing b = some f →
            f.park = some (.access c w) → (t.col p).firing b = some { f with park := none }) ∧
          (∀ k, (s.col p).crun = some k → (t.col p).crun = some { k with parked := none }) ∧ ∀ l, t.rd l = s.rd l) ∧
        (∀ b e f, a = 1 → b < 4 → (s.col p).parkedFault b = some e → (s.col p).firing b = some f → f.phase = .run →
          (∀ k ∈ (s.col p).kvq, k.parked.isSome = true → k.band = b) →
          ∃ t g, exec (.fail v) s = .next t ∧ (t.col p).firing b = some g ∧ g.park = none ∧
            g.phase = .abort e.1 1 e.2 (f.pc % 2 ^ 20) true) ∧
        ((s.col p).region ≠ 0 →
          (∀ b f, a = 2 → (s.col p).bandOf h = some b → (s.col p).firing b = some f → f.phase = .run →
            ∃ t g tval, exec (.refire v) s = .next t ∧ (t.col p).firing b = some g ∧
              g.phase = .abort 0x18E 1 tval (f.pc % 2 ^ 20) false ∧
              tval = ((s.col p).parkedFault b).elim 0 (fun e => w64 e.1)) ∧
          (a = 3 → ∃ t, exec (.release v) s = .next t ∧ (∀ q, q ≠ p → t.col q = s.col q) ∧
            t.col p = { s.col p with hold := (s.col p).hold &&& ~~~ w64 (2 ^ h),
                                     refire := (s.col p).refire ||| ((s.col p).hold &&& w64 (2 ^ h)) }) ∧
          (a = 6 → ∃ t, exec (.step v) s = .next t ∧ (t.col p).stepping.getLsbD h = true ∧
            ∀ b, b < 4 → ∀ f, (s.col p).firing b = some f → f.ent.hidx = h →
              (t.col p).firing b = some { f with stepMode := true, park := if f.park = some .stopped then none else f.park }) ∧
          (a = 7 → ∃ t, exec (.run v) s = .next t ∧ (t.col p).stepping.getLsbD h = false ∧
            ∀ b, b < 4 → ∀ f, (s.col p).firing b = some f → f.ent.hidx = h →
              (t.col p).firing b = some { f with stepMode := false, park := if f.park = some .stopped then none else f.park }))))

/-- Power (R448, R449, R451, R452, R456 to R458): the release of reset loses everything volatile, counts the boot and runs the
ROM, which leaves the boot state when it accepts a firmware image and recovery otherwise; BOOT_COMPLETE starts the run state
with a margin re-plan; DOZE is refused while a region is loaded, else the columns lose everything but slices and handles; WAKE
and its completion lead back to the run state with vector 10, pending while it is masked; at power loss the package is off.
Model's choices: that columns and GDDR 7 list nothing after a reset or a power loss (logs 1, 109), a masked vector that becomes
pending (log 93), DOZE and WAKE refused in the other states (log 104), what a doze keeps (log 116). -/
def Obligations.PowerUp : Prop :=
  ∀ (s : State) (v : Word),
    (∃ t, exec .resetRelease s = .next t ∧ t.cols = [] ∧ t.gddr = [] ∧ t.hostMem = s.hostMem ∧ t.regions = [] ∧
      t.proctor.begun = true ∧ t.proctor.boots = (s.proctor.boots + 1) % 2 ^ 32 ∧
      (let p := s.proctor
       let ok := fun (b : Bool) => p.verify 1 (p.image 1 b) = 0
       t.proctor.power = if ok (p.activeOf 1) ∨ ok (!p.activeOf 1) then .boot else .recovery)) ∧
    (s.proctor.power = .boot → s.proctor.begun = true → ∃ t, exec .bootComplete s = .next t ∧ t.proctor.power = .run ∧
      t.proctor.replans = s.proctor.replans + 1 ∧ t.cols = s.cols ∧ ∀ l, t.rd l = s.rd l) ∧
    (∃ t, exec .powerLoss s = .next t ∧ t.proctor.power = .off ∧ t.cols = [] ∧ t.gddr = [] ∧ t.hostMem = s.hostMem ∧
      t.proctor.serial = s.proctor.serial ∧ t.proctor.fuseSvn = s.proctor.fuseSvn) ∧
    (s.proctor.power = .doze → s.proctor.wake = true → ∃ t, exec .wakeComplete s = .next t ∧ t.proctor.power = .run ∧
      t.proctor.wake = false ∧ t.cols = s.cols ∧
      if s.masked 10 then t.irqs = s.irqs ∧ 10 ∈ t.pba else t.irqs = s.irqs ++ [10]) ∧
    (v.getLsbD 63 = true → s.proctor.mbstat.getLsbD 63 = false →
      let refused := fun (i : Instr) => ∃ t, exec i s = .next t ∧ t.proctor.power = s.proctor.power ∧
        t.proctor.mbstat = w64 4 ∧ t.proctor.mbcmd = v &&& 0x7FFFFFFFFFFF00FF ∧ t.cols = s.cols ∧
        t.notices = s.notices ++ [⟨0x382, 3, 0x3FF, 0, 0, v, 0, 0⟩]
      (fieldW v 7 0 = 6 →
        (s.proctor.power = .run → s.regions ≠ [] → refused (.doze v)) ∧
        (s.proctor.power = .boot → refused (.doze v)) ∧
        (s.proctor.power = .run → s.dozeBusy = false → ∃ t, exec (.doze v) s = .next t ∧ t.proctor.power = .doze ∧
          t.proctor.mbstat = 0 ∧ t.gddr = s.gddr ∧ (sorted none s.cols = true → ∀ p, (t.col p).ls = [] ∧
            (t.col p).stack = (s.col p).stack ∧ (t.col p).htab = (s.col p).htab ∧ (t.col p).running = none))) ∧
      (fieldW v 7 0 = 7 →
        (s.proctor.power = .run → refused (.wake v)) ∧
        (s.proctor.power = .doze → ∃ t, exec (.wake v) s = .next t ∧ t.proctor.wake = true ∧ t.proctor.power = .doze ∧
          t.proctor.mbstat = 0)))

/-- The other mailbox commands (R453 to R455, R466 to R471), written with GO set while none runs: each completes in a state
that admits it, MBSTAT holding status and length and MBBUF its result: IDENT the certificates, ATTEST a report over the
nonce, UPDSTAGE writes the slot not running, UPDACTIVATE sets a verified one active, SVNCOMMIT raises the floor, JREAD gives
entries of the journal in every state, the management commands act as stated; bad arguments end with status 5, an unknown
operation with 1, a wrong state with 4. Model's choices: JREAD accepted in recovery, where R452 and R466 differ, with ATTEST and
SVNCOMMIT refused there (log 104), the statuses of INJECT and RCREAD (log 114), what a command leaves in MBCMD and MBBUF (log
105), the sizes of a slot (log 107), when PENDING is 1 (log 108), what the other blocks of a capture hold (log 115). -/
def Obligations.Mailbox : Prop :=
  ∀ (s : State) (v : Word), v.getLsbD 63 = true → s.proctor.mbstat.getLsbD 63 = false → s.proctor.power ≠ .off →
    let op := fieldW v 7 0
    let ends := fun (i : Instr) (st : Nat) (out : List Byte) (f : State → Prop) => ∃ t, exec i s = .next t ∧
      t.proctor.mbstat = w64 (st + 2 ^ 8 * out.length) ∧ t.proctor.mbcmd = v &&& 0x7FFFFFFFFFFF00FF ∧
      t.mbBytes out.length = out ∧ t.proctor.power = s.proctor.power ∧ f t
    let pr := s.proctor
    let run := pr.power = .run
    let any := fun (_ : State) => True
    (opKnown op = false → ends (.unknownCommand v) 1 [] (fun t => t.notices = s.notices ++
      [⟨0x382, 3, 0x3FF, 0, 0, v, 0, 0⟩])) ∧
    (op = 1 → ends (.ident v) 0 ((Config.certificates 0 ++ Config.certificates 1).take 4096) any) ∧
    (pr.power = .recovery → (op = 2 → ends (.attest v) 4 [] any) ∧ (op = 5 → ends (.svncommit v) 4 [] any)) ∧
    (pr.power ≠ .recovery →
      (op = 2 → let r := s.attestReport (s.mbBytes 48)
        ends (.attest v) 0 (r ++ fit 96 (Config.signAttest (sha384 r))) any) ∧
      (op = 5 → ends (.svncommit v) 0 [] (fun t => t.proctor.fuseSvn = max pr.fuseSvn pr.svn))) ∧
    (op = 0x15 → ∃ l : List JEntry, ends (.jread v) 0 (l.flatMap JEntry.bytes) any ∧ l.length ≤ 64 ∧
      ∀ e ∈ l, e ∈ pr.journalProt ++ pr.journalRing ++ pr.jbuf ∧ mbArg v ≤ e.seq) ∧
    (op = 3 → let kind := fieldW v 57 56
      let off := fieldW v 55 32
      let n := mbLen v
      ((kind ≠ 1 ∧ kind ≠ 2) ∨ 4096 < n ∨ slotBytes kind < off + n → ends (.updstage v) 5 [] any) ∧
      ((kind = 1 ∨ kind = 2) → n ≤ 4096 → off + n ≤ slotBytes kind → ends (.updstage v) 0 [] (fun t =>
        cut (t.proctor.image kind (!pr.slotOf kind)) off n = s.mbBytes n ∧
        t.proctor.image kind (pr.slotOf kind) = pr.image kind (pr.slotOf kind)))) ∧
    (op = 4 → let kind := fieldW v 33 32
      let other := !pr.slotOf kind
      ((kind ≠ 1 ∧ kind ≠ 2) → ends (.updactivate v) 5 [] any) ∧
      ((kind = 1 ∨ kind = 2) → pr.verify kind (pr.image kind other) = 0 →
        ends (.updactivate v) 0 [] (fun t => t.proctor.activeOf kind = other ∧ (kind = 1 → t.proctor.pending = true))) ∧
      (∀ st, (kind = 1 ∨ kind = 2) → st ≠ 0 → pr.verify kind (pr.image kind other) = st →
        ends (.updactivate v) st [] (fun t => t.proctor.active = pr.active))) ∧
    (¬run → (op = 0x10 → ends (.replan v) 4 [] any) ∧ (op = 0x14 → ends (.inject v) 4 [] any)) ∧
    (run →
      (op = 0x10 → ends (.replan v) 0 [] (fun t => t.proctor.replans = pr.replans + 1)) ∧
      (op = 0x11 → ends (.rcarm v) 0 [] (fun t =>
        t.proctor.armed = some (leNat (s.mbBytes 8) % 2 ^ 43) ∧ t.proctor.capture = none)) ∧
      (op = 0x12 → ends (.rctrig v) 0 [] (fun t => ∀ m, pr.armed = some m →
        (bitN m 0 = true → (∃ l, t.proctor.capture = some l ∧ l.cols = s.cols) ∧ t.proctor.armed = none) ∧
        (bitN m 0 = false → t.proctor.armed = some m))) ∧
      (op = 0x13 → (pr.capture = none → ends (.rcread v) 4 [] any) ∧
        (∀ l, pr.capture = some l →
          (mbArg v < 256 → ends (.rcread v) 0 (fit 1024 (Config.captureLayout
            (({ State.reset with cols := l.cols, reqs := l.reqs, lse := l.lse } : State).captured (mbArg v)))) any) ∧
          (256 ≤ mbArg v → ends (.rcread v) 0 (fit 1024 (Config.captureOther l.other (mbArg v))) any))) ∧
      (op = 0x14 → let a := leNat (s.mbBytes 8)
        (72 ≤ fieldN a 50 44 → ends (.inject v) 5 [] (fun t => t.cols = s.cols)) ∧
        (∀ o, fieldN a 9 0 / 256 = pr.chainPos → fieldN a 50 44 < 72 → bitN a 58 = false →
          (let c := s.col (fieldN a 9 0 % 256)
           c.injectAt (c.handle (fieldN a 17 10)) (fieldN a 34 18) (fieldN a 43 35) = some o) →
          ends (.inject v) 0 [] (fun t => let p := fieldN a 9 0 % 256
            sget 0 (t.col p).stkFlip (o / 8) = sget 0 (s.col p).stkFlip (o / 8) ^^^ 2 ^ fieldN a 50 44))) ∧
      (op = 0x16 → ends (.jclear v) 0 [] (fun t =>
        t.proctor.journalProt = pr.journalProt.filter (fun e => decide (mbArg v ≤ e.seq)))))

/-- Telemetry and maintenance (R432, R443, R459, R460, R464, R465, R469, R470): a sample sets its register and a first crossing
of a threshold alarms, reports and journals 0x385 (the entry waits in the Proctor's buffer, or, where 1,024 wait, is lost
and counted); at 115 °C the package shuts down; the re-plan timer, offset steps of
0.5 mV, retraining from due to end with a pause of at most 4,800 cycles, an external link's failure, and the triggers of Roll
Call. Model's choices: where a sensor counts as having crossed and what a shutdown keeps (logs 113, 109), the journal's buffer
and the time of an entry (log 110), when a retraining starts and how long it pauses (log 112), the far position of a failed link
(log 117), the re-plan's steps (log 111), what a latch holds besides (log 115). -/
def Obligations.Telemetry : Prop :=
  (∀ (s : State) (n v : Nat), n < 113 → s.proctor.power ≠ .off →
     (64 ≤ n → n < 112 → ∃ t, exec (.sensorSample n v) s = .next t ∧ sget 0 t.proctor.sensors n = s.sampleWord n v ∧
       t.notices = s.notices) ∧
     (n < 64 → let x := sx 16 v
       let w : Int := fieldW s.proctor.thresh 11 0
       let c : Int := fieldW s.proctor.thresh 23 12
       (1840 ≤ x → ∃ t, exec (.sensorSample n v) s = .next t ∧ t.proctor.power = .off ∧ t.cols = []) ∧
       (x < 1840 → x < c → w ≤ x → s.proctor.above = [] → ∃ t, exec (.sensorSample n v) s = .next t ∧
         t.proctor.above = [2 * n] ∧ t.proctor.alarm = s.proctor.alarm ||| 1 ∧
         (s.proctor.power ≠ .doze → t.notices = s.notices ++ [⟨0x385, 3, 0x3FF, 0, 0, w64 n, 0, 0⟩]) ∧
         (s.proctor.armed = none → let j := s.proctor.jbuf
           (j.length < 1024 → t.proctor.jbuf = j ++ [⟨s.proctor.jseq, 0, 0x385, 0x3FF, false, s.proctor.usec, w64 n⟩] ∧
             t.proctor.jseq = s.proctor.jseq + 1) ∧
           (1024 ≤ j.length → t.proctor.jbuf = j ∧
             sget 0 t.proctor.counters 10 = min (sget 0 s.proctor.counters 10 + 1) 0xFFFFFFFF))))) ∧
  (∀ (s : State), s.proctor.power = .run → s.proctor.planAt + 259200000000 ≤ s.proctor.usec →
     ∃ t, exec .replanTimer s = .next t ∧ t.proctor.replans = s.proctor.replans + 1 ∧ t.proctor.planAt = s.proctor.usec ∧
       t.cols = s.cols) ∧
  (∀ (s : State) (c : Nat), s.proctor.power = .run → c < 256 →
     let o := sget 0 s.proctor.offset c
     let g := sget 0 s.proctor.target c
     o ≠ g → sget 0 s.proctor.stepAt c ≤ s.proctor.usec →
     ∃ t, exec (.voltageOffsetStep c) s = .next t ∧ sget 0 t.proctor.offset c = (if o < g then o + 1 else o - 1) ∧
       sget 0 t.proctor.stepAt c = s.proctor.usec + 10 ∧ t.cols = s.cols) ∧
  (∀ (s : State) (d : Nat), d < 2 →
     (s.proctor.power = .run → s.proctor.dueAt d = none → s.proctor.rtPause.contains d = false →
       sget 0 s.proctor.rtLast d + 32000000 ≤ s.pktCycle →
       ∃ t, exec (.retrainingDue d) s = .next t ∧ t.proctor.dueAt d = some s.pktCycle ∧ t.cols = s.cols) ∧
     (∀ at_, s.proctor.power = .run → s.proctor.dueAt d = some at_ →
       let pauses := fun (i : Instr) => ∃ t, exec i s = .next t ∧ t.proctor.dueAt d = none ∧
         t.proctor.rtPause.contains d = true ∧ t.proctor.rtDefer.contains d = false ∧
         s.pktCycle ≤ sget 0 t.proctor.rtEnd d ∧ sget 0 t.proctor.rtEnd d ≤ s.pktCycle + 4800
       (s.deferring d = false → pauses (.retrainingStart d)) ∧
       (s.deferring d = true → at_ + 640000 ≤ s.pktCycle → pauses (.retrainingForced d))) ∧
     (s.proctor.power = .run → s.proctor.rtPause.contains d = true → sget 0 s.proctor.rtEnd d ≤ s.pktCycle → ∃ t, exec (.retrainingEnd d) s = .next t ∧
       t.proctor.rtPause.contains d = false ∧ sget 0 t.proctor.rtLast d = s.pktCycle ∧ t.cols = s.cols)) ∧
  (∀ (s : State) (port far : Nat), port < 2 → far < 4 → ∃ t, exec (.externalLinkFailure port far) s = .next t ∧
     (s.proctor.power ≠ .doze → t.notices = s.notices ++ [⟨0x28A, 3, 0x3FF, 0, 0, w64 (port + 2 ^ 8 * far), 0, 0⟩]) ∧
     t.cols = s.cols) ∧
  (∀ (s : State) (v : Word) (m : Nat), s.proctor.power = .run → s.proctor.armed = some m →
     let latches := fun (i : Instr) => ∃ t l, exec i s = .next t ∧ t.proctor.capture = some l ∧ l.cols = s.cols ∧ l.reqs = s.reqs ∧ l.lse = s.lse ∧
       t.proctor.armed = none
     (v.getLsbD 0 = true → bitN m 1 = true → latches (.rchostWrite v)) ∧
     (v.getLsbD 0 = false → exec (.rchostWrite v) s = .next s.done) ∧ (bitN m 2 = true → latches .rollCallPin))

/-! ## What every step keeps, and reset -/

/-- Every step keeps every memory in canonical form: the GDDR 7, the host's memory, and each column's local store and stack
slices list addresses strictly rising and no byte that reads as an unlisted one does. -/
def Obligations.StepKeepsMemory : Prop :=
  ∀ s t : State, s.memWf = true → step s = .next t → t.memWf = true

/-- No step changes what is fused (R450, R451): configuration, stepping, serial number, key hashes. FUSESVN never falls, and it
rises only where the step's turn is an SVNCOMMIT, carried out as it is written or later (R453, R455; the two turns are log
105). -/
def Obligations.StepKeepsFuses : Prop :=
  ∀ s t : State, step s = .next t →
    t.proctor.cfg = s.proctor.cfg ∧ t.proctor.step = s.proctor.step ∧ t.proctor.serial = s.proctor.serial ∧
    t.proctor.keyHash = s.proctor.keyHash ∧ s.proctor.fuseSvn ≤ t.proctor.fuseSvn ∧
    (t.proctor.fuseSvn ≠ s.proctor.fuseSvn → ∃ v rest, fieldW v 7 0 = 5 ∧
      (s.agenda = .event (.svncommit v) :: rest ∨ (s.agenda = .mbEnd :: rest ∧ s.proctor.mbrun = some v)))

/-- The package at reset, where Tables 2-4, 4-4, 4-5, 4-8, 6-6, 8-4, 11-3, 17-2, 17-5, 18-2, 18-6, 19-2 and 20-1 give reset
values: the boot state, no region loaded and no firing running, the trap registers, SYS.HOLD, SYS.TVEC and the counters zero,
SYS.PROMO 256, every scale 1.0, no handle valid, the queues disabled and empty, PTROOT, FRES, URGMAP, DWIN and KVCNT zero,
THRESH at its table's values; and every memory in canonical form. -/
def Obligations.ResetState : Prop :=
  let s := State.reset
  s.memWf = true ∧ s.proctor.power = .boot ∧ s.regions = [] ∧
  (∀ p, let c := s.col p
    c.running = none ∧ c.inTrap = false ∧ c.hold = 0 ∧ c.cause = 0 ∧ c.tval = 0 ∧ c.tepc = 0 ∧ c.tvec = 0 ∧ c.numst = 0 ∧
    c.ftzcnt = 0 ∧ c.promo = 256 ∧ c.earlyp = 0 ∧ c.badlist = 0 ∧ c.snapv = 0 ∧
    (∀ n, sget 0x3F800000#64 c.wscale n = 0x3F800000) ∧ (∀ h, (c.handle h).valid = false)) ∧
  (∀ q, (s.lqOf q).en = false ∧ (s.lqOf q).head = 0 ∧ (s.lqOf q).tail = 0) ∧ (∀ c, (s.rqOf c).en = false) ∧
  s.ptroot = 0 ∧ s.fres = 0 ∧ s.urgmap = 0 ∧ s.dwin = 0 ∧ s.kvcnt = 0 ∧
  s.proctor.thresh = BitVec.ofNat 64 (1520 + 1680 * 2 ^ 12 + 6500 * 2 ^ 24 + 650 * 2 ^ 37 + 25 * 2 ^ 49)
end

