-- ==== Sys2Proof/Laws/Sparse.lean ====
section
/-!
SUPPORT. Laws of the sparse tables: what a read after a write gives, and that every write keeps the canonical form.
-/
namespace Sys2Proof.Machine

variable {α : Type}

@[simp] theorem sget_nil (d : α) (k : Nat) : sget d [] k = d := rfl

theorem sget_sdel_self (d : α) (m : List (Nat × α)) (k : Nat) : sget d (sdel m k) k = d := by
  induction m with
  | nil => rfl
  | cons p t ih => by_cases h : p.1 = k <;> simp [sdel, sget, h, ih]

theorem sget_sdel_ne (d : α) (m : List (Nat × α)) {k j : Nat} (h : j ≠ k) : sget d (sdel m k) j = sget d m j := by
  induction m with
  | nil => rfl
  | cons p t ih =>
    by_cases hk : p.1 = k
    · simp [sdel, sget, hk, ih, Ne.symm h]
    · by_cases hj : p.1 = j <;> simp [sdel, sget, hk, hj, ih, h]

theorem sget_sins_self (d : α) (m : List (Nat × α)) (k : Nat) (v : α) : sget d (sins m k v) k = v := by
  induction m with
  | nil => simp [sins, sget]
  | cons p t ih =>
    by_cases hlt : k < p.1
    · simp [sins, sget, hlt]
    · by_cases hk : p.1 = k <;> simp [sins, sget, hlt, hk, ih]

theorem sget_sins_ne (d : α) (m : List (Nat × α)) {k j : Nat} (v : α) (h : j ≠ k) :
    sget d (sins m k v) j = sget d m j := by
  induction m with
  | nil => simp [sins, sget, Ne.symm h]
  | cons p t ih =>
    by_cases hlt : k < p.1
    · simp [sins, sget, hlt, Ne.symm h]
    · by_cases hk : p.1 = k
      · simp [sins, sget, hk, Ne.symm h]
      · by_cases hj : p.1 = j
        · subst hj; simp [sins, sget, hlt, hk]
        · simp [sins, sget, hlt, hk, hj, ih]

/-! ## The canonical form -/

/-- A lower bound admits every lower one. -/
theorem sorted_weaken (m : List (Nat × α)) {a b : Nat} (hab : a ≤ b) (h : sorted (some b) m = true) :
    sorted (some a) m = true := by
  cases m with
  | nil => rfl
  | cons p t =>
    simp only [sorted, Bool.and_eq_true, decide_eq_true_eq] at h ⊢
    exact ⟨by omega, h.2⟩

theorem sorted_none_of_some (m : List (Nat × α)) {b : Nat} (h : sorted (some b) m = true) : sorted none m = true := by
  cases m with
  | nil => rfl
  | cons p t => simp only [sorted, Bool.and_eq_true] at h ⊢; exact h.2

theorem sorted_sdel (m : List (Nat × α)) (b : Nat) (k : Nat) (h : sorted (some b) m = true) :
    sorted (some b) (sdel m k) = true := by
  induction m generalizing b with
  | nil => rfl
  | cons p t ih =>
    simp only [sorted, Bool.and_eq_true, decide_eq_true_eq] at h
    unfold sdel
    split
    · exact ih b (sorted_weaken t (by omega) h.2)
    · simp only [sorted, Bool.and_eq_true, decide_eq_true_eq]
      exact ⟨h.1, ih p.1 h.2⟩

theorem sorted_sins (m : List (Nat × α)) (b k : Nat) (v : α) (hb : b < k) (h : sorted (some b) m = true) :
    sorted (some b) (sins m k v) = true := by
  induction m generalizing b with
  | nil => simp [sins, sorted, hb]
  | cons p t ih =>
    simp only [sorted, Bool.and_eq_true, decide_eq_true_eq] at h
    unfold sins
    split
    · simp only [sorted, Bool.and_eq_true, decide_eq_true_eq]; exact ⟨hb, ‹_›, h.2⟩
    · split
      · simp only [sorted, Bool.and_eq_true, decide_eq_true_eq]
        exact ⟨hb, by have := h.2; simp_all⟩
      · simp only [sorted, Bool.and_eq_true, decide_eq_true_eq]
        exact ⟨h.1, ih p.1 (by omega) h.2⟩

theorem sorted_none_sdel (m : List (Nat × α)) (k : Nat) (h : sorted none m = true) : sorted none (sdel m k) = true := by
  cases m with
  | nil => rfl
  | cons p t =>
    simp only [sorted] at h
    unfold sdel
    split
    · exact sorted_none_of_some _ (sorted_sdel t p.1 k h)
    · simp only [sorted]; exact sorted_sdel t p.1 k h

theorem sorted_none_sins (m : List (Nat × α)) (k : Nat) (v : α) (h : sorted none m = true) :
    sorted none (sins m k v) = true := by
  cases m with
  | nil => rfl
  | cons p t =>
    simp only [sorted] at h
    unfold sins
    split
    · simp only [sorted, Bool.and_eq_true, decide_eq_true_eq]; exact ⟨‹_›, h⟩
    · split
      · simp only [sorted]; simp_all
      · simp only [sorted]; exact sorted_sins t p.1 k v (by omega) h

theorem mem_sdel (m : List (Nat × α)) (k : Nat) {x : Nat × α} (h : x ∈ sdel m k) : x ∈ m := by
  induction m with
  | nil => exact h
  | cons p t ih =>
    unfold sdel at h
    split at h
    · exact List.mem_cons_of_mem _ (ih h)
    · rcases List.mem_cons.mp h with h | h
      · exact h ▸ List.mem_cons_self
      · exact List.mem_cons_of_mem _ (ih h)

theorem mem_sins (m : List (Nat × α)) (k : Nat) (v : α) {x : Nat × α} (h : x ∈ sins m k v) : x = (k, v) ∨ x ∈ m := by
  induction m with
  | nil => simpa [sins] using h
  | cons p t ih =>
    unfold sins at h
    split at h
    · simpa using h
    · split at h
      · rcases List.mem_cons.mp h with h | h
        · exact .inl h
        · exact .inr (List.mem_cons_of_mem _ h)
      · rcases List.mem_cons.mp h with h | h
        · exact .inr (h ▸ List.mem_cons_self)
        · exact (ih h).imp id (List.mem_cons_of_mem _)

/-! ## Writes -/

variable [DecidableEq α]

/-- A read after a write to the same key gives what was written. -/
@[simp] theorem sget_sput_self (d : α) (m : List (Nat × α)) (k : Nat) (v : α) : sget d (sput d m k v) k = v := by
  unfold sput
  split
  · simp [sget_sdel_self, *]
  · exact sget_sins_self d m k v

/-- A write leaves every other key alone. -/
theorem sget_sput_ne (d : α) (m : List (Nat × α)) {k j : Nat} (v : α) (h : j ≠ k) :
    sget d (sput d m k v) j = sget d m j := by
  unfold sput
  split
  · exact sget_sdel_ne d m h
  · exact sget_sins_ne d m v h

theorem sget_sput (d : α) (m : List (Nat × α)) (k j : Nat) (v : α) :
    sget d (sput d m k v) j = if j = k then v else sget d m j := by
  by_cases h : j = k
  · simp [h]
  · simp [h, sget_sput_ne d m v h]

/-- Every write keeps the canonical form. -/
theorem canonical_sput (d : α) (m : List (Nat × α)) (k : Nat) (v : α) (h : canonical d m = true) :
    canonical d (sput d m k v) = true := by
  simp only [canonical, Bool.and_eq_true, List.all_eq_true, decide_eq_true_eq] at h ⊢
  unfold sput
  split
  · exact ⟨sorted_none_sdel m k h.1, fun x hx => h.2 x (mem_sdel m k hx)⟩
  · refine ⟨sorted_none_sins m k v h.1, fun x hx => ?_⟩
    rcases mem_sins m k v hx with rfl | hx
    · assumption
    · exact h.2 x hx

@[simp] theorem canonical_nil (d : α) : canonical d ([] : List (Nat × α)) = true := rfl

end Sys2Proof.Machine
end

