-- ==== Sys2Proof/Laws/State.lean ====
section
/-!
SUPPORT. One lemma per field per update: what an update of a column, of the issuing column, of a bank, of a firing or of
the Proctor leaves alone, and what a read after it gives. Written from the list of fields of State, Column and Bank.
-/
namespace Sys2Proof.Machine

/-! ## Columns of the package -/

@[simp] theorem State.col_setCol_self (s : State) (p : Nat) (c : Column) : (s.setCol p c).col p = c := by
  simp [State.col, State.setCol]

theorem State.col_setCol_ne (s : State) (c : Column) {p q : Nat} (h : q ≠ p) : (s.setCol p c).col q = s.col q := by
  simp [State.col, State.setCol, sget_sput_ne _ _ _ h]

@[simp] theorem State.col_modCol_self (s : State) (p : Nat) (f : Column → Column) : (s.modCol p f).col p = f (s.col p) := by
  simp [State.modCol]

theorem State.col_modCol_ne (s : State) (f : Column → Column) {p q : Nat} (h : q ≠ p) :
    (s.modCol p f).col q = s.col q := by
  simp [State.modCol, State.col_setCol_ne _ _ h]

theorem State.col_modCol (s : State) (f : Column → Column) (p q : Nat) :
    (s.modCol p f).col q = if q = p then f (s.col p) else s.col q := by
  by_cases h : q = p
  · subst h; simp
  · simp [h, State.col_modCol_ne s f h]

@[simp] theorem State.me_modMe (s : State) (f : Column → Column) : (s.modMe f).me = f s.me := by
  simp [State.me, State.modMe, State.modCol, State.col, State.setCol]

theorem State.col_modMe_ne (s : State) (f : Column → Column) {q : Nat} (h : q ≠ s.cur) :
    (s.modMe f).col q = s.col q := State.col_modCol_ne s f h

/-! ## Banks of a column -/

@[simp] theorem Column.bank_setBank_self (c : Column) (b : Nat) (k : Bank) : (c.setBank b k).bank b = k := by
  simp [Column.bank, Column.setBank]

theorem Column.bank_setBank_ne (c : Column) (k : Bank) {a b : Nat} (h : a ≠ b) : (c.setBank b k).bank a = c.bank a := by
  simp [Column.bank, Column.setBank, sget_sput_ne _ _ _ h]

@[simp] theorem Column.bank_modBank_self (c : Column) (b : Nat) (f : Bank → Bank) : (c.modBank b f).bank b = f (c.bank b) := by
  simp [Column.modBank]

theorem Column.bank_modBank_ne (c : Column) (f : Bank → Bank) {a b : Nat} (h : a ≠ b) :
    (c.modBank b f).bank a = c.bank a := by
  simp [Column.modBank, Column.bank_setBank_ne _ _ h]

@[simp] theorem State.bk_modBk (s : State) (f : Bank → Bank) : (s.modBk f).bk = f s.bk := by
  have h : (s.me.modBank s.me.bankIx f).bankIx = s.me.bankIx := rfl
  simp [State.bk, State.modBk, h]

/-! ## What an update leaves alone -/

@[simp] theorem State.setCol_gddr (s : State) (p : Nat) (c : Column) : (s.setCol p c).gddr = s.gddr := rfl
@[simp] theorem State.setCol_gdFlip (s : State) (p : Nat) (c : Column) : (s.setCol p c).gdFlip = s.gdFlip := rfl
@[simp] theorem State.setCol_hostMem (s : State) (p : Nat) (c : Column) : (s.setCol p c).hostMem = s.hostMem := rfl
@[simp] theorem State.setCol_flights (s : State) (p : Nat) (c : Column) : (s.setCol p c).flights = s.flights := rfl
@[simp] theorem State.setCol_routes (s : State) (p : Nat) (c : Column) : (s.setCol p c).routes = s.routes := rfl
@[simp] theorem State.setCol_stages (s : State) (p : Nat) (c : Column) : (s.setCol p c).stages = s.stages := rfl
@[simp] theorem State.setCol_linkRot (s : State) (p : Nat) (c : Column) : (s.setCol p c).linkRot = s.linkRot := rfl
@[simp] theorem State.setCol_reqs (s : State) (p : Nat) (c : Column) : (s.setCol p c).reqs = s.reqs := rfl
@[simp] theorem State.setCol_credits (s : State) (p : Nat) (c : Column) : (s.setCol p c).credits = s.credits := rfl
@[simp] theorem State.setCol_opens (s : State) (p : Nat) (c : Column) : (s.setCol p c).opens = s.opens := rfl
@[simp] theorem State.setCol_notices (s : State) (p : Nat) (c : Column) : (s.setCol p c).notices = s.notices := rfl
@[simp] theorem State.setCol_confs (s : State) (p : Nat) (c : Column) : (s.setCol p c).confs = s.confs := rfl
@[simp] theorem State.setCol_wavefronts (s : State) (p : Nat) (c : Column) : (s.setCol p c).wavefronts = s.wavefronts := rfl
@[simp] theorem State.setCol_groups (s : State) (p : Nat) (c : Column) : (s.setCol p c).groups = s.groups := rfl
@[simp] theorem State.setCol_bells (s : State) (p : Nat) (c : Column) : (s.setCol p c).bells = s.bells := rfl
@[simp] theorem State.setCol_kvbase (s : State) (p : Nat) (c : Column) : (s.setCol p c).kvbase = s.kvbase := rfl
@[simp] theorem State.setCol_kvcnt (s : State) (p : Nat) (c : Column) : (s.setCol p c).kvcnt = s.kvcnt := rfl
@[simp] theorem State.setCol_flbase (s : State) (p : Nat) (c : Column) : (s.setCol p c).flbase = s.flbase := rfl
@[simp] theorem State.setCol_ssbase (s : State) (p : Nat) (c : Column) : (s.setCol p c).ssbase = s.ssbase := rfl
@[simp] theorem State.setCol_sslen (s : State) (p : Nat) (c : Column) : (s.setCol p c).sslen = s.sslen := rfl
@[simp] theorem State.setCol_flHead (s : State) (p : Nat) (c : Column) : (s.setCol p c).flHead = s.flHead := rfl
@[simp] theorem State.setCol_flCount (s : State) (p : Nat) (c : Column) : (s.setCol p c).flCount = s.flCount := rfl
@[simp] theorem State.setCol_flPushes (s : State) (p : Nat) (c : Column) : (s.setCol p c).flPushes = s.flPushes := rfl
@[simp] theorem State.setCol_flStuck (s : State) (p : Nat) (c : Column) : (s.setCol p c).flStuck = s.flStuck := rfl
@[simp] theorem State.setCol_flParked (s : State) (p : Nat) (c : Column) : (s.setCol p c).flParked = s.flParked := rfl
@[simp] theorem State.setCol_blocks (s : State) (p : Nat) (c : Column) : (s.setCol p c).blocks = s.blocks := rfl
@[simp] theorem State.setCol_units (s : State) (p : Nat) (c : Column) : (s.setCol p c).units = s.units := rfl
@[simp] theorem State.setCol_lse (s : State) (p : Nat) (c : Column) : (s.setCol p c).lse = s.lse := rfl
@[simp] theorem State.setCol_lsePost (s : State) (p : Nat) (c : Column) : (s.setCol p c).lsePost = s.lsePost := rfl
@[simp] theorem State.setCol_lseWin (s : State) (p : Nat) (c : Column) : (s.setCol p c).lseWin = s.lseWin := rfl
@[simp] theorem State.setCol_lq (s : State) (p : Nat) (c : Column) : (s.setCol p c).lq = s.lq := rfl
@[simp] theorem State.setCol_lqSram (s : State) (p : Nat) (c : Column) : (s.setCol p c).lqSram = s.lqSram := rfl
@[simp] theorem State.setCol_rq (s : State) (p : Nat) (c : Column) : (s.setCol p c).rq = s.rq := rfl
@[simp] theorem State.setCol_fqLost (s : State) (p : Nat) (c : Column) : (s.setCol p c).fqLost = s.fqLost := rfl
@[simp] theorem State.setCol_urgmap (s : State) (p : Nat) (c : Column) : (s.setCol p c).urgmap = s.urgmap := rfl
@[simp] theorem State.setCol_dwin (s : State) (p : Nat) (c : Column) : (s.setCol p c).dwin = s.dwin := rfl
@[simp] theorem State.setCol_ccinv (s : State) (p : Nat) (c : Column) : (s.setCol p c).ccinv = s.ccinv := rfl
@[simp] theorem State.setCol_ptroot (s : State) (p : Nat) (c : Column) : (s.setCol p c).ptroot = s.ptroot := rfl
@[simp] theorem State.setCol_fres (s : State) (p : Nat) (c : Column) : (s.setCol p c).fres = s.fres := rfl
@[simp] theorem State.setCol_fresWait (s : State) (p : Nat) (c : Column) : (s.setCol p c).fresWait = s.fresWait := rfl
@[simp] theorem State.setCol_msixTable (s : State) (p : Nat) (c : Column) : (s.setCol p c).msixTable = s.msixTable := rfl
@[simp] theorem State.setCol_pba (s : State) (p : Nat) (c : Column) : (s.setCol p c).pba = s.pba := rfl
@[simp] theorem State.setCol_irqs (s : State) (p : Nat) (c : Column) : (s.setCol p c).irqs = s.irqs := rfl
@[simp] theorem State.setCol_hostReads (s : State) (p : Nat) (c : Column) : (s.setCol p c).hostReads = s.hostReads := rfl
@[simp] theorem State.setCol_bar2 (s : State) (p : Nat) (c : Column) : (s.setCol p c).bar2 = s.bar2 := rfl
@[simp] theorem State.setCol_barGot (s : State) (p : Nat) (c : Column) : (s.setCol p c).barGot = s.barGot := rfl
@[simp] theorem State.setCol_barPut (s : State) (p : Nat) (c : Column) : (s.setCol p c).barPut = s.barPut := rfl
@[simp] theorem State.setCol_cache (s : State) (p : Nat) (c : Column) : (s.setCol p c).cache = s.cache := rfl
@[simp] theorem State.setCol_dieTlb (s : State) (p : Nat) (c : Column) : (s.setCol p c).dieTlb = s.dieTlb := rfl
@[simp] theorem State.setCol_regions (s : State) (p : Nat) (c : Column) : (s.setCol p c).regions = s.regions := rfl
@[simp] theorem State.setCol_nextRegion (s : State) (p : Nat) (c : Column) : (s.setCol p c).nextRegion = s.nextRegion := rfl
@[simp] theorem State.setCol_retired (s : State) (p : Nat) (c : Column) : (s.setCol p c).retired = s.retired := rfl
@[simp] theorem State.setCol_lqRr (s : State) (p : Nat) (c : Column) : (s.setCol p c).lqRr = s.lqRr := rfl
@[simp] theorem State.setCol_pktCycle (s : State) (p : Nat) (c : Column) : (s.setCol p c).pktCycle = s.pktCycle := rfl
@[simp] theorem State.setCol_clock (s : State) (p : Nat) (c : Column) : (s.setCol p c).clock = s.clock := rfl
@[simp] theorem State.setCol_proctor (s : State) (p : Nat) (c : Column) : (s.setCol p c).proctor = s.proctor := rfl
@[simp] theorem State.setCol_cur (s : State) (p : Nat) (c : Column) : (s.setCol p c).cur = s.cur := rfl
@[simp] theorem State.setCol_agenda (s : State) (p : Nat) (c : Column) : (s.setCol p c).agenda = s.agenda := rfl
@[simp] theorem State.setCol_last (s : State) (p : Nat) (c : Column) : (s.setCol p c).last = s.last := rfl
@[simp] theorem State.setCol_ctx (s : State) (p : Nat) (c : Column) : (s.setCol p c).ctx = s.ctx := rfl
@[simp] theorem State.setCol_redirect (s : State) (p : Nat) (c : Column) : (s.setCol p c).redirect = s.redirect := rfl
@[simp] theorem State.setCol_nextId (s : State) (p : Nat) (c : Column) : (s.setCol p c).nextId = s.nextId := rfl
@[simp] theorem State.setCol_nextFree (s : State) (p : Nat) (c : Column) : (s.setCol p c).nextFree = s.nextFree := rfl
@[simp] theorem State.setCol_apart (s : State) (p : Nat) (c : Column) : (s.setCol p c).apart = s.apart := rfl
@[simp] theorem State.setCol_early (s : State) (p : Nat) (c : Column) : (s.setCol p c).early = s.early := rfl
@[simp] theorem State.setCol_late (s : State) (p : Nat) (c : Column) : (s.setCol p c).late = s.late := rfl

@[simp] theorem State.modCol_gddr (s : State) (p : Nat) (f : Column → Column) : (s.modCol p f).gddr = s.gddr := rfl
@[simp] theorem State.modCol_gdFlip (s : State) (p : Nat) (f : Column → Column) : (s.modCol p f).gdFlip = s.gdFlip := rfl
@[simp] theorem State.modCol_hostMem (s : State) (p : Nat) (f : Column → Column) : (s.modCol p f).hostMem = s.hostMem := rfl
@[simp] theorem State.modCol_flights (s : State) (p : Nat) (f : Column → Column) : (s.modCol p f).flights = s.flights := rfl
@[simp] theorem State.modCol_routes (s : State) (p : Nat) (f : Column → Column) : (s.modCol p f).routes = s.routes := rfl
@[simp] theorem State.modCol_stages (s : State) (p : Nat) (f : Column → Column) : (s.modCol p f).stages = s.stages := rfl
@[simp] theorem State.modCol_linkRot (s : State) (p : Nat) (f : Column → Column) : (s.modCol p f).linkRot = s.linkRot := rfl
@[simp] theorem State.modCol_reqs (s : State) (p : Nat) (f : Column → Column) : (s.modCol p f).reqs = s.reqs := rfl
@[simp] theorem State.modCol_credits (s : State) (p : Nat) (f : Column → Column) : (s.modCol p f).credits = s.credits := rfl
@[simp] theorem State.modCol_opens (s : State) (p : Nat) (f : Column → Column) : (s.modCol p f).opens = s.opens := rfl
@[simp] theorem State.modCol_notices (s : State) (p : Nat) (f : Column → Column) : (s.modCol p f).notices = s.notices := rfl
@[simp] theorem State.modCol_confs (s : State) (p : Nat) (f : Column → Column) : (s.modCol p f).confs = s.confs := rfl
@[simp] theorem State.modCol_wavefronts (s : State) (p : Nat) (f : Column → Column) : (s.modCol p f).wavefronts = s.wavefronts := rfl
@[simp] theorem State.modCol_groups (s : State) (p : Nat) (f : Column → Column) : (s.modCol p f).groups = s.groups := rfl
@[simp] theorem State.modCol_bells (s : State) (p : Nat) (f : Column → Column) : (s.modCol p f).bells = s.bells := rfl
@[simp] theorem State.modCol_kvbase (s : State) (p : Nat) (f : Column → Column) : (s.modCol p f).kvbase = s.kvbase := rfl
@[simp] theorem State.modCol_kvcnt (s : State) (p : Nat) (f : Column → Column) : (s.modCol p f).kvcnt = s.kvcnt := rfl
@[simp] theorem State.modCol_flbase (s : State) (p : Nat) (f : Column → Column) : (s.modCol p f).flbase = s.flbase := rfl
@[simp] theorem State.modCol_ssbase (s : State) (p : Nat) (f : Column → Column) : (s.modCol p f).ssbase = s.ssbase := rfl
@[simp] theorem State.modCol_sslen (s : State) (p : Nat) (f : Column → Column) : (s.modCol p f).sslen = s.sslen := rfl
@[simp] theorem State.modCol_flHead (s : State) (p : Nat) (f : Column → Column) : (s.modCol p f).flHead = s.flHead := rfl
@[simp] theorem State.modCol_flCount (s : State) (p : Nat) (f : Column → Column) : (s.modCol p f).flCount = s.flCount := rfl
@[simp] theorem State.modCol_flPushes (s : State) (p : Nat) (f : Column → Column) : (s.modCol p f).flPushes = s.flPushes := rfl
@[simp] theorem State.modCol_flStuck (s : State) (p : Nat) (f : Column → Column) : (s.modCol p f).flStuck = s.flStuck := rfl
@[simp] theorem State.modCol_flParked (s : State) (p : Nat) (f : Column → Column) : (s.modCol p f).flParked = s.flParked := rfl
@[simp] theorem State.modCol_blocks (s : State) (p : Nat) (f : Column → Column) : (s.modCol p f).blocks = s.blocks := rfl
@[simp] theorem State.modCol_units (s : State) (p : Nat) (f : Column → Column) : (s.modCol p f).units = s.units := rfl
@[simp] theorem State.modCol_lse (s : State) (p : Nat) (f : Column → Column) : (s.modCol p f).lse = s.lse := rfl
@[simp] theorem State.modCol_lsePost (s : State) (p : Nat) (f : Column → Column) : (s.modCol p f).lsePost = s.lsePost := rfl
@[simp] theorem State.modCol_lseWin (s : State) (p : Nat) (f : Column → Column) : (s.modCol p f).lseWin = s.lseWin := rfl
@[simp] theorem State.modCol_lq (s : State) (p : Nat) (f : Column → Column) : (s.modCol p f).lq = s.lq := rfl
@[simp] theorem State.modCol_lqSram (s : State) (p : Nat) (f : Column → Column) : (s.modCol p f).lqSram = s.lqSram := rfl
@[simp] theorem State.modCol_rq (s : State) (p : Nat) (f : Column → Column) : (s.modCol p f).rq = s.rq := rfl
@[simp] theorem State.modCol_fqLost (s : State) (p : Nat) (f : Column → Column) : (s.modCol p f).fqLost = s.fqLost := rfl
@[simp] theorem State.modCol_urgmap (s : State) (p : Nat) (f : Column → Column) : (s.modCol p f).urgmap = s.urgmap := rfl
@[simp] theorem State.modCol_dwin (s : State) (p : Nat) (f : Column → Column) : (s.modCol p f).dwin = s.dwin := rfl
@[simp] theorem State.modCol_ccinv (s : State) (p : Nat) (f : Column → Column) : (s.modCol p f).ccinv = s.ccinv := rfl
@[simp] theorem State.modCol_ptroot (s : State) (p : Nat) (f : Column → Column) : (s.modCol p f).ptroot = s.ptroot := rfl
@[simp] theorem State.modCol_fres (s : State) (p : Nat) (f : Column → Column) : (s.modCol p f).fres = s.fres := rfl
@[simp] theorem State.modCol_fresWait (s : State) (p : Nat) (f : Column → Column) : (s.modCol p f).fresWait = s.fresWait := rfl
@[simp] theorem State.modCol_msixTable (s : State) (p : Nat) (f : Column → Column) : (s.modCol p f).msixTable = s.msixTable := rfl
@[simp] theorem State.modCol_pba (s : State) (p : Nat) (f : Column → Column) : (s.modCol p f).pba = s.pba := rfl
@[simp] theorem State.modCol_irqs (s : State) (p : Nat) (f : Column → Column) : (s.modCol p f).irqs = s.irqs := rfl
@[simp] theorem State.modCol_hostReads (s : State) (p : Nat) (f : Column → Column) : (s.modCol p f).hostReads = s.hostReads := rfl
@[simp] theorem State.modCol_bar2 (s : State) (p : Nat) (f : Column → Column) : (s.modCol p f).bar2 = s.bar2 := rfl
@[simp] theorem State.modCol_barGot (s : State) (p : Nat) (f : Column → Column) : (s.modCol p f).barGot = s.barGot := rfl
@[simp] theorem State.modCol_barPut (s : State) (p : Nat) (f : Column → Column) : (s.modCol p f).barPut = s.barPut := rfl
@[simp] theorem State.modCol_cache (s : State) (p : Nat) (f : Column → Column) : (s.modCol p f).cache = s.cache := rfl
@[simp] theorem State.modCol_dieTlb (s : State) (p : Nat) (f : Column → Column) : (s.modCol p f).dieTlb = s.dieTlb := rfl
@[simp] theorem State.modCol_regions (s : State) (p : Nat) (f : Column → Column) : (s.modCol p f).regions = s.regions := rfl
@[simp] theorem State.modCol_nextRegion (s : State) (p : Nat) (f : Column → Column) : (s.modCol p f).nextRegion = s.nextRegion := rfl
@[simp] theorem State.modCol_retired (s : State) (p : Nat) (f : Column → Column) : (s.modCol p f).retired = s.retired := rfl
@[simp] theorem State.modCol_lqRr (s : State) (p : Nat) (f : Column → Column) : (s.modCol p f).lqRr = s.lqRr := rfl
@[simp] theorem State.modCol_pktCycle (s : State) (p : Nat) (f : Column → Column) : (s.modCol p f).pktCycle = s.pktCycle := rfl
@[simp] theorem State.modCol_clock (s : State) (p : Nat) (f : Column → Column) : (s.modCol p f).clock = s.clock := rfl
@[simp] theorem State.modCol_proctor (s : State) (p : Nat) (f : Column → Column) : (s.modCol p f).proctor = s.proctor := rfl
@[simp] theorem State.modCol_cur (s : State) (p : Nat) (f : Column → Column) : (s.modCol p f).cur = s.cur := rfl
@[simp] theorem State.modCol_agenda (s : State) (p : Nat) (f : Column → Column) : (s.modCol p f).agenda = s.agenda := rfl
@[simp] theorem State.modCol_last (s : State) (p : Nat) (f : Column → Column) : (s.modCol p f).last = s.last := rfl
@[simp] theorem State.modCol_ctx (s : State) (p : Nat) (f : Column → Column) : (s.modCol p f).ctx = s.ctx := rfl
@[simp] theorem State.modCol_redirect (s : State) (p : Nat) (f : Column → Column) : (s.modCol p f).redirect = s.redirect := rfl
@[simp] theorem State.modCol_nextId (s : State) (p : Nat) (f : Column → Column) : (s.modCol p f).nextId = s.nextId := rfl
@[simp] theorem State.modCol_nextFree (s : State) (p : Nat) (f : Column → Column) : (s.modCol p f).nextFree = s.nextFree := rfl
@[simp] theorem State.modCol_apart (s : State) (p : Nat) (f : Column → Column) : (s.modCol p f).apart = s.apart := rfl
@[simp] theorem State.modCol_early (s : State) (p : Nat) (f : Column → Column) : (s.modCol p f).early = s.early := rfl
@[simp] theorem State.modCol_late (s : State) (p : Nat) (f : Column → Column) : (s.modCol p f).late = s.late := rfl

@[simp] theorem State.modMe_gddr (s : State) (f : Column → Column) : (s.modMe f).gddr = s.gddr := rfl
@[simp] theorem State.modMe_gdFlip (s : State) (f : Column → Column) : (s.modMe f).gdFlip = s.gdFlip := rfl
@[simp] theorem State.modMe_hostMem (s : State) (f : Column → Column) : (s.modMe f).hostMem = s.hostMem := rfl
@[simp] theorem State.modMe_flights (s : State) (f : Column → Column) : (s.modMe f).flights = s.flights := rfl
@[simp] theorem State.modMe_routes (s : State) (f : Column → Column) : (s.modMe f).routes = s.routes := rfl
@[simp] theorem State.modMe_stages (s : State) (f : Column → Column) : (s.modMe f).stages = s.stages := rfl
@[simp] theorem State.modMe_linkRot (s : State) (f : Column → Column) : (s.modMe f).linkRot = s.linkRot := rfl
@[simp] theorem State.modMe_reqs (s : State) (f : Column → Column) : (s.modMe f).reqs = s.reqs := rfl
@[simp] theorem State.modMe_credits (s : State) (f : Column → Column) : (s.modMe f).credits = s.credits := rfl
@[simp] theorem State.modMe_opens (s : State) (f : Column → Column) : (s.modMe f).opens = s.opens := rfl
@[simp] theorem State.modMe_notices (s : State) (f : Column → Column) : (s.modMe f).notices = s.notices := rfl
@[simp] theorem State.modMe_confs (s : State) (f : Column → Column) : (s.modMe f).confs = s.confs := rfl
@[simp] theorem State.modMe_wavefronts (s : State) (f : Column → Column) : (s.modMe f).wavefronts = s.wavefronts := rfl
@[simp] theorem State.modMe_groups (s : State) (f : Column → Column) : (s.modMe f).groups = s.groups := rfl
@[simp] theorem State.modMe_bells (s : State) (f : Column → Column) : (s.modMe f).bells = s.bells := rfl
@[simp] theorem State.modMe_kvbase (s : State) (f : Column → Column) : (s.modMe f).kvbase = s.kvbase := rfl
@[simp] theorem State.modMe_kvcnt (s : State) (f : Column → Column) : (s.modMe f).kvcnt = s.kvcnt := rfl
@[simp] theorem State.modMe_flbase (s : State) (f : Column → Column) : (s.modMe f).flbase = s.flbase := rfl
@[simp] theorem State.modMe_ssbase (s : State) (f : Column → Column) : (s.modMe f).ssbase = s.ssbase := rfl
@[simp] theorem State.modMe_sslen (s : State) (f : Column → Column) : (s.modMe f).sslen = s.sslen := rfl
@[simp] theorem State.modMe_flHead (s : State) (f : Column → Column) : (s.modMe f).flHead = s.flHead := rfl
@[simp] theorem State.modMe_flCount (s : State) (f : Column → Column) : (s.modMe f).flCount = s.flCount := rfl
@[simp] theorem State.modMe_flPushes (s : State) (f : Column → Column) : (s.modMe f).flPushes = s.flPushes := rfl
@[simp] theorem State.modMe_flStuck (s : State) (f : Column → Column) : (s.modMe f).flStuck = s.flStuck := rfl
@[simp] theorem State.modMe_flParked (s : State) (f : Column → Column) : (s.modMe f).flParked = s.flParked := rfl
@[simp] theorem State.modMe_blocks (s : State) (f : Column → Column) : (s.modMe f).blocks = s.blocks := rfl
@[simp] theorem State.modMe_units (s : State) (f : Column → Column) : (s.modMe f).units = s.units := rfl
@[simp] theorem State.modMe_lse (s : State) (f : Column → Column) : (s.modMe f).lse = s.lse := rfl
@[simp] theorem State.modMe_lsePost (s : State) (f : Column → Column) : (s.modMe f).lsePost = s.lsePost := rfl
@[simp] theorem State.modMe_lseWin (s : State) (f : Column → Column) : (s.modMe f).lseWin = s.lseWin := rfl
@[simp] theorem State.modMe_lq (s : State) (f : Column → Column) : (s.modMe f).lq = s.lq := rfl
@[simp] theorem State.modMe_lqSram (s : State) (f : Column → Column) : (s.modMe f).lqSram = s.lqSram := rfl
@[simp] theorem State.modMe_rq (s : State) (f : Column → Column) : (s.modMe f).rq = s.rq := rfl
@[simp] theorem State.modMe_fqLost (s : State) (f : Column → Column) : (s.modMe f).fqLost = s.fqLost := rfl
@[simp] theorem State.modMe_urgmap (s : State) (f : Column → Column) : (s.modMe f).urgmap = s.urgmap := rfl
@[simp] theorem State.modMe_dwin (s : State) (f : Column → Column) : (s.modMe f).dwin = s.dwin := rfl
@[simp] theorem State.modMe_ccinv (s : State) (f : Column → Column) : (s.modMe f).ccinv = s.ccinv := rfl
@[simp] theorem State.modMe_ptroot (s : State) (f : Column → Column) : (s.modMe f).ptroot = s.ptroot := rfl
@[simp] theorem State.modMe_fres (s : State) (f : Column → Column) : (s.modMe f).fres = s.fres := rfl
@[simp] theorem State.modMe_fresWait (s : State) (f : Column → Column) : (s.modMe f).fresWait = s.fresWait := rfl
@[simp] theorem State.modMe_msixTable (s : State) (f : Column → Column) : (s.modMe f).msixTable = s.msixTable := rfl
@[simp] theorem State.modMe_pba (s : State) (f : Column → Column) : (s.modMe f).pba = s.pba := rfl
@[simp] theorem State.modMe_irqs (s : State) (f : Column → Column) : (s.modMe f).irqs = s.irqs := rfl
@[simp] theorem State.modMe_hostReads (s : State) (f : Column → Column) : (s.modMe f).hostReads = s.hostReads := rfl
@[simp] theorem State.modMe_bar2 (s : State) (f : Column → Column) : (s.modMe f).bar2 = s.bar2 := rfl
@[simp] theorem State.modMe_barGot (s : State) (f : Column → Column) : (s.modMe f).barGot = s.barGot := rfl
@[simp] theorem State.modMe_barPut (s : State) (f : Column → Column) : (s.modMe f).barPut = s.barPut := rfl
@[simp] theorem State.modMe_cache (s : State) (f : Column → Column) : (s.modMe f).cache = s.cache := rfl
@[simp] theorem State.modMe_dieTlb (s : State) (f : Column → Column) : (s.modMe f).dieTlb = s.dieTlb := rfl
@[simp] theorem State.modMe_regions (s : State) (f : Column → Column) : (s.modMe f).regions = s.regions := rfl
@[simp] theorem State.modMe_nextRegion (s : State) (f : Column → Column) : (s.modMe f).nextRegion = s.nextRegion := rfl
@[simp] theorem State.modMe_retired (s : State) (f : Column → Column) : (s.modMe f).retired = s.retired := rfl
@[simp] theorem State.modMe_lqRr (s : State) (f : Column → Column) : (s.modMe f).lqRr = s.lqRr := rfl
@[simp] theorem State.modMe_pktCycle (s : State) (f : Column → Column) : (s.modMe f).pktCycle = s.pktCycle := rfl
@[simp] theorem State.modMe_clock (s : State) (f : Column → Column) : (s.modMe f).clock = s.clock := rfl
@[simp] theorem State.modMe_proctor (s : State) (f : Column → Column) : (s.modMe f).proctor = s.proctor := rfl
@[simp] theorem State.modMe_cur (s : State) (f : Column → Column) : (s.modMe f).cur = s.cur := rfl
@[simp] theorem State.modMe_agenda (s : State) (f : Column → Column) : (s.modMe f).agenda = s.agenda := rfl
@[simp] theorem State.modMe_last (s : State) (f : Column → Column) : (s.modMe f).last = s.last := rfl
@[simp] theorem State.modMe_ctx (s : State) (f : Column → Column) : (s.modMe f).ctx = s.ctx := rfl
@[simp] theorem State.modMe_redirect (s : State) (f : Column → Column) : (s.modMe f).redirect = s.redirect := rfl
@[simp] theorem State.modMe_nextId (s : State) (f : Column → Column) : (s.modMe f).nextId = s.nextId := rfl
@[simp] theorem State.modMe_nextFree (s : State) (f : Column → Column) : (s.modMe f).nextFree = s.nextFree := rfl
@[simp] theorem State.modMe_apart (s : State) (f : Column → Column) : (s.modMe f).apart = s.apart := rfl
@[simp] theorem State.modMe_early (s : State) (f : Column → Column) : (s.modMe f).early = s.early := rfl
@[simp] theorem State.modMe_late (s : State) (f : Column → Column) : (s.modMe f).late = s.late := rfl

@[simp] theorem State.modBk_gddr (s : State) (f : Bank → Bank) : (s.modBk f).gddr = s.gddr := rfl
@[simp] theorem State.modBk_gdFlip (s : State) (f : Bank → Bank) : (s.modBk f).gdFlip = s.gdFlip := rfl
@[simp] theorem State.modBk_hostMem (s : State) (f : Bank → Bank) : (s.modBk f).hostMem = s.hostMem := rfl
@[simp] theorem State.modBk_flights (s : State) (f : Bank → Bank) : (s.modBk f).flights = s.flights := rfl
@[simp] theorem State.modBk_routes (s : State) (f : Bank → Bank) : (s.modBk f).routes = s.routes := rfl
@[simp] theorem State.modBk_stages (s : State) (f : Bank → Bank) : (s.modBk f).stages = s.stages := rfl
@[simp] theorem State.modBk_linkRot (s : State) (f : Bank → Bank) : (s.modBk f).linkRot = s.linkRot := rfl
@[simp] theorem State.modBk_reqs (s : State) (f : Bank → Bank) : (s.modBk f).reqs = s.reqs := rfl
@[simp] theorem State.modBk_credits (s : State) (f : Bank → Bank) : (s.modBk f).credits = s.credits := rfl
@[simp] theorem State.modBk_opens (s : State) (f : Bank → Bank) : (s.modBk f).opens = s.opens := rfl
@[simp] theorem State.modBk_notices (s : State) (f : Bank → Bank) : (s.modBk f).notices = s.notices := rfl
@[simp] theorem State.modBk_confs (s : State) (f : Bank → Bank) : (s.modBk f).confs = s.confs := rfl
@[simp] theorem State.modBk_wavefronts (s : State) (f : Bank → Bank) : (s.modBk f).wavefronts = s.wavefronts := rfl
@[simp] theorem State.modBk_groups (s : State) (f : Bank → Bank) : (s.modBk f).groups = s.groups := rfl
@[simp] theorem State.modBk_bells (s : State) (f : Bank → Bank) : (s.modBk f).bells = s.bells := rfl
@[simp] theorem State.modBk_kvbase (s : State) (f : Bank → Bank) : (s.modBk f).kvbase = s.kvbase := rfl
@[simp] theorem State.modBk_kvcnt (s : State) (f : Bank → Bank) : (s.modBk f).kvcnt = s.kvcnt := rfl
@[simp] theorem State.modBk_flbase (s : State) (f : Bank → Bank) : (s.modBk f).flbase = s.flbase := rfl
@[simp] theorem State.modBk_ssbase (s : State) (f : Bank → Bank) : (s.modBk f).ssbase = s.ssbase := rfl
@[simp] theorem State.modBk_sslen (s : State) (f : Bank → Bank) : (s.modBk f).sslen = s.sslen := rfl
@[simp] theorem State.modBk_flHead (s : State) (f : Bank → Bank) : (s.modBk f).flHead = s.flHead := rfl
@[simp] theorem State.modBk_flCount (s : State) (f : Bank → Bank) : (s.modBk f).flCount = s.flCount := rfl
@[simp] theorem State.modBk_flPushes (s : State) (f : Bank → Bank) : (s.modBk f).flPushes = s.flPushes := rfl
@[simp] theorem State.modBk_flStuck (s : State) (f : Bank → Bank) : (s.modBk f).flStuck = s.flStuck := rfl
@[simp] theorem State.modBk_flParked (s : State) (f : Bank → Bank) : (s.modBk f).flParked = s.flParked := rfl
@[simp] theorem State.modBk_blocks (s : State) (f : Bank → Bank) : (s.modBk f).blocks = s.blocks := rfl
@[simp] theorem State.modBk_units (s : State) (f : Bank → Bank) : (s.modBk f).units = s.units := rfl
@[simp] theorem State.modBk_lse (s : State) (f : Bank → Bank) : (s.modBk f).lse = s.lse := rfl
@[simp] theorem State.modBk_lsePost (s : State) (f : Bank → Bank) : (s.modBk f).lsePost = s.lsePost := rfl
@[simp] theorem State.modBk_lseWin (s : State) (f : Bank → Bank) : (s.modBk f).lseWin = s.lseWin := rfl
@[simp] theorem State.modBk_lq (s : State) (f : Bank → Bank) : (s.modBk f).lq = s.lq := rfl
@[simp] theorem State.modBk_lqSram (s : State) (f : Bank → Bank) : (s.modBk f).lqSram = s.lqSram := rfl
@[simp] theorem State.modBk_rq (s : State) (f : Bank → Bank) : (s.modBk f).rq = s.rq := rfl
@[simp] theorem State.modBk_fqLost (s : State) (f : Bank → Bank) : (s.modBk f).fqLost = s.fqLost := rfl
@[simp] theorem State.modBk_urgmap (s : State) (f : Bank → Bank) : (s.modBk f).urgmap = s.urgmap := rfl
@[simp] theorem State.modBk_dwin (s : State) (f : Bank → Bank) : (s.modBk f).dwin = s.dwin := rfl
@[simp] theorem State.modBk_ccinv (s : State) (f : Bank → Bank) : (s.modBk f).ccinv = s.ccinv := rfl
@[simp] theorem State.modBk_ptroot (s : State) (f : Bank → Bank) : (s.modBk f).ptroot = s.ptroot := rfl
@[simp] theorem State.modBk_fres (s : State) (f : Bank → Bank) : (s.modBk f).fres = s.fres := rfl
@[simp] theorem State.modBk_fresWait (s : State) (f : Bank → Bank) : (s.modBk f).fresWait = s.fresWait := rfl
@[simp] theorem State.modBk_msixTable (s : State) (f : Bank → Bank) : (s.modBk f).msixTable = s.msixTable := rfl
@[simp] theorem State.modBk_pba (s : State) (f : Bank → Bank) : (s.modBk f).pba = s.pba := rfl
@[simp] theorem State.modBk_irqs (s : State) (f : Bank → Bank) : (s.modBk f).irqs = s.irqs := rfl
@[simp] theorem State.modBk_hostReads (s : State) (f : Bank → Bank) : (s.modBk f).hostReads = s.hostReads := rfl
@[simp] theorem State.modBk_bar2 (s : State) (f : Bank → Bank) : (s.modBk f).bar2 = s.bar2 := rfl
@[simp] theorem State.modBk_barGot (s : State) (f : Bank → Bank) : (s.modBk f).barGot = s.barGot := rfl
@[simp] theorem State.modBk_barPut (s : State) (f : Bank → Bank) : (s.modBk f).barPut = s.barPut := rfl
@[simp] theorem State.modBk_cache (s : State) (f : Bank → Bank) : (s.modBk f).cache = s.cache := rfl
@[simp] theorem State.modBk_dieTlb (s : State) (f : Bank → Bank) : (s.modBk f).dieTlb = s.dieTlb := rfl
@[simp] theorem State.modBk_regions (s : State) (f : Bank → Bank) : (s.modBk f).regions = s.regions := rfl
@[simp] theorem State.modBk_nextRegion (s : State) (f : Bank → Bank) : (s.modBk f).nextRegion = s.nextRegion := rfl
@[simp] theorem State.modBk_retired (s : State) (f : Bank → Bank) : (s.modBk f).retired = s.retired := rfl
@[simp] theorem State.modBk_lqRr (s : State) (f : Bank → Bank) : (s.modBk f).lqRr = s.lqRr := rfl
@[simp] theorem State.modBk_pktCycle (s : State) (f : Bank → Bank) : (s.modBk f).pktCycle = s.pktCycle := rfl
@[simp] theorem State.modBk_clock (s : State) (f : Bank → Bank) : (s.modBk f).clock = s.clock := rfl
@[simp] theorem State.modBk_proctor (s : State) (f : Bank → Bank) : (s.modBk f).proctor = s.proctor := rfl
@[simp] theorem State.modBk_cur (s : State) (f : Bank → Bank) : (s.modBk f).cur = s.cur := rfl
@[simp] theorem State.modBk_agenda (s : State) (f : Bank → Bank) : (s.modBk f).agenda = s.agenda := rfl
@[simp] theorem State.modBk_last (s : State) (f : Bank → Bank) : (s.modBk f).last = s.last := rfl
@[simp] theorem State.modBk_ctx (s : State) (f : Bank → Bank) : (s.modBk f).ctx = s.ctx := rfl
@[simp] theorem State.modBk_redirect (s : State) (f : Bank → Bank) : (s.modBk f).redirect = s.redirect := rfl
@[simp] theorem State.modBk_nextId (s : State) (f : Bank → Bank) : (s.modBk f).nextId = s.nextId := rfl
@[simp] theorem State.modBk_nextFree (s : State) (f : Bank → Bank) : (s.modBk f).nextFree = s.nextFree := rfl
@[simp] theorem State.modBk_apart (s : State) (f : Bank → Bank) : (s.modBk f).apart = s.apart := rfl
@[simp] theorem State.modBk_early (s : State) (f : Bank → Bank) : (s.modBk f).early = s.early := rfl
@[simp] theorem State.modBk_late (s : State) (f : Bank → Bank) : (s.modBk f).late = s.late := rfl

@[simp] theorem State.modFire_gddr (s : State) (f : Firing → Firing) : (s.modFire f).gddr = s.gddr := rfl
@[simp] theorem State.modFire_gdFlip (s : State) (f : Firing → Firing) : (s.modFire f).gdFlip = s.gdFlip := rfl
@[simp] theorem State.modFire_hostMem (s : State) (f : Firing → Firing) : (s.modFire f).hostMem = s.hostMem := rfl
@[simp] theorem State.modFire_flights (s : State) (f : Firing → Firing) : (s.modFire f).flights = s.flights := rfl
@[simp] theorem State.modFire_routes (s : State) (f : Firing → Firing) : (s.modFire f).routes = s.routes := rfl
@[simp] theorem State.modFire_stages (s : State) (f : Firing → Firing) : (s.modFire f).stages = s.stages := rfl
@[simp] theorem State.modFire_linkRot (s : State) (f : Firing → Firing) : (s.modFire f).linkRot = s.linkRot := rfl
@[simp] theorem State.modFire_reqs (s : State) (f : Firing → Firing) : (s.modFire f).reqs = s.reqs := rfl
@[simp] theorem State.modFire_credits (s : State) (f : Firing → Firing) : (s.modFire f).credits = s.credits := rfl
@[simp] theorem State.modFire_opens (s : State) (f : Firing → Firing) : (s.modFire f).opens = s.opens := rfl
@[simp] theorem State.modFire_notices (s : State) (f : Firing → Firing) : (s.modFire f).notices = s.notices := rfl
@[simp] theorem State.modFire_confs (s : State) (f : Firing → Firing) : (s.modFire f).confs = s.confs := rfl
@[simp] theorem State.modFire_wavefronts (s : State) (f : Firing → Firing) : (s.modFire f).wavefronts = s.wavefronts := rfl
@[simp] theorem State.modFire_groups (s : State) (f : Firing → Firing) : (s.modFire f).groups = s.groups := rfl
@[simp] theorem State.modFire_bells (s : State) (f : Firing → Firing) : (s.modFire f).bells = s.bells := rfl
@[simp] theorem State.modFire_kvbase (s : State) (f : Firing → Firing) : (s.modFire f).kvbase = s.kvbase := rfl
@[simp] theorem State.modFire_kvcnt (s : State) (f : Firing → Firing) : (s.modFire f).kvcnt = s.kvcnt := rfl
@[simp] theorem State.modFire_flbase (s : State) (f : Firing → Firing) : (s.modFire f).flbase = s.flbase := rfl
@[simp] theorem State.modFire_ssbase (s : State) (f : Firing → Firing) : (s.modFire f).ssbase = s.ssbase := rfl
@[simp] theorem State.modFire_sslen (s : State) (f : Firing → Firing) : (s.modFire f).sslen = s.sslen := rfl
@[simp] theorem State.modFire_flHead (s : State) (f : Firing → Firing) : (s.modFire f).flHead = s.flHead := rfl
@[simp] theorem State.modFire_flCount (s : State) (f : Firing → Firing) : (s.modFire f).flCount = s.flCount := rfl
@[simp] theorem State.modFire_flPushes (s : State) (f : Firing → Firing) : (s.modFire f).flPushes = s.flPushes := rfl
@[simp] theorem State.modFire_flStuck (s : State) (f : Firing → Firing) : (s.modFire f).flStuck = s.flStuck := rfl
@[simp] theorem State.modFire_flParked (s : State) (f : Firing → Firing) : (s.modFire f).flParked = s.flParked := rfl
@[simp] theorem State.modFire_blocks (s : State) (f : Firing → Firing) : (s.modFire f).blocks = s.blocks := rfl
@[simp] theorem State.modFire_units (s : State) (f : Firing → Firing) : (s.modFire f).units = s.units := rfl
@[simp] theorem State.modFire_lse (s : State) (f : Firing → Firing) : (s.modFire f).lse = s.lse := rfl
@[simp] theorem State.modFire_lsePost (s : State) (f : Firing → Firing) : (s.modFire f).lsePost = s.lsePost := rfl
@[simp] theorem State.modFire_lseWin (s : State) (f : Firing → Firing) : (s.modFire f).lseWin = s.lseWin := rfl
@[simp] theorem State.modFire_lq (s : State) (f : Firing → Firing) : (s.modFire f).lq = s.lq := rfl
@[simp] theorem State.modFire_lqSram (s : State) (f : Firing → Firing) : (s.modFire f).lqSram = s.lqSram := rfl
@[simp] theorem State.modFire_rq (s : State) (f : Firing → Firing) : (s.modFire f).rq = s.rq := rfl
@[simp] theorem State.modFire_fqLost (s : State) (f : Firing → Firing) : (s.modFire f).fqLost = s.fqLost := rfl
@[simp] theorem State.modFire_urgmap (s : State) (f : Firing → Firing) : (s.modFire f).urgmap = s.urgmap := rfl
@[simp] theorem State.modFire_dwin (s : State) (f : Firing → Firing) : (s.modFire f).dwin = s.dwin := rfl
@[simp] theorem State.modFire_ccinv (s : State) (f : Firing → Firing) : (s.modFire f).ccinv = s.ccinv := rfl
@[simp] theorem State.modFire_ptroot (s : State) (f : Firing → Firing) : (s.modFire f).ptroot = s.ptroot := rfl
@[simp] theorem State.modFire_fres (s : State) (f : Firing → Firing) : (s.modFire f).fres = s.fres := rfl
@[simp] theorem State.modFire_fresWait (s : State) (f : Firing → Firing) : (s.modFire f).fresWait = s.fresWait := rfl
@[simp] theorem State.modFire_msixTable (s : State) (f : Firing → Firing) : (s.modFire f).msixTable = s.msixTable := rfl
@[simp] theorem State.modFire_pba (s : State) (f : Firing → Firing) : (s.modFire f).pba = s.pba := rfl
@[simp] theorem State.modFire_irqs (s : State) (f : Firing → Firing) : (s.modFire f).irqs = s.irqs := rfl
@[simp] theorem State.modFire_hostReads (s : State) (f : Firing → Firing) : (s.modFire f).hostReads = s.hostReads := rfl
@[simp] theorem State.modFire_bar2 (s : State) (f : Firing → Firing) : (s.modFire f).bar2 = s.bar2 := rfl
@[simp] theorem State.modFire_barGot (s : State) (f : Firing → Firing) : (s.modFire f).barGot = s.barGot := rfl
@[simp] theorem State.modFire_barPut (s : State) (f : Firing → Firing) : (s.modFire f).barPut = s.barPut := rfl
@[simp] theorem State.modFire_cache (s : State) (f : Firing → Firing) : (s.modFire f).cache = s.cache := rfl
@[simp] theorem State.modFire_dieTlb (s : State) (f : Firing → Firing) : (s.modFire f).dieTlb = s.dieTlb := rfl
@[simp] theorem State.modFire_regions (s : State) (f : Firing → Firing) : (s.modFire f).regions = s.regions := rfl
@[simp] theorem State.modFire_nextRegion (s : State) (f : Firing → Firing) : (s.modFire f).nextRegion = s.nextRegion := rfl
@[simp] theorem State.modFire_retired (s : State) (f : Firing → Firing) : (s.modFire f).retired = s.retired := rfl
@[simp] theorem State.modFire_lqRr (s : State) (f : Firing → Firing) : (s.modFire f).lqRr = s.lqRr := rfl
@[simp] theorem State.modFire_pktCycle (s : State) (f : Firing → Firing) : (s.modFire f).pktCycle = s.pktCycle := rfl
@[simp] theorem State.modFire_clock (s : State) (f : Firing → Firing) : (s.modFire f).clock = s.clock := rfl
@[simp] theorem State.modFire_proctor (s : State) (f : Firing → Firing) : (s.modFire f).proctor = s.proctor := rfl
@[simp] theorem State.modFire_cur (s : State) (f : Firing → Firing) : (s.modFire f).cur = s.cur := rfl
@[simp] theorem State.modFire_agenda (s : State) (f : Firing → Firing) : (s.modFire f).agenda = s.agenda := rfl
@[simp] theorem State.modFire_last (s : State) (f : Firing → Firing) : (s.modFire f).last = s.last := rfl
@[simp] theorem State.modFire_ctx (s : State) (f : Firing → Firing) : (s.modFire f).ctx = s.ctx := rfl
@[simp] theorem State.modFire_redirect (s : State) (f : Firing → Firing) : (s.modFire f).redirect = s.redirect := rfl
@[simp] theorem State.modFire_nextId (s : State) (f : Firing → Firing) : (s.modFire f).nextId = s.nextId := rfl
@[simp] theorem State.modFire_nextFree (s : State) (f : Firing → Firing) : (s.modFire f).nextFree = s.nextFree := rfl
@[simp] theorem State.modFire_apart (s : State) (f : Firing → Firing) : (s.modFire f).apart = s.apart := rfl
@[simp] theorem State.modFire_early (s : State) (f : Firing → Firing) : (s.modFire f).early = s.early := rfl
@[simp] theorem State.modFire_late (s : State) (f : Firing → Firing) : (s.modFire f).late = s.late := rfl

@[simp] theorem State.modProctor_cols (s : State) (f : Proctor → Proctor) : (s.modProctor f).cols = s.cols := rfl
@[simp] theorem State.modProctor_gddr (s : State) (f : Proctor → Proctor) : (s.modProctor f).gddr = s.gddr := rfl
@[simp] theorem State.modProctor_gdFlip (s : State) (f : Proctor → Proctor) : (s.modProctor f).gdFlip = s.gdFlip := rfl
@[simp] theorem State.modProctor_hostMem (s : State) (f : Proctor → Proctor) : (s.modProctor f).hostMem = s.hostMem := rfl
@[simp] theorem State.modProctor_flights (s : State) (f : Proctor → Proctor) : (s.modProctor f).flights = s.flights := rfl
@[simp] theorem State.modProctor_routes (s : State) (f : Proctor → Proctor) : (s.modProctor f).routes = s.routes := rfl
@[simp] theorem State.modProctor_stages (s : State) (f : Proctor → Proctor) : (s.modProctor f).stages = s.stages := rfl
@[simp] theorem State.modProctor_linkRot (s : State) (f : Proctor → Proctor) : (s.modProctor f).linkRot = s.linkRot := rfl
@[simp] theorem State.modProctor_reqs (s : State) (f : Proctor → Proctor) : (s.modProctor f).reqs = s.reqs := rfl
@[simp] theorem State.modProctor_credits (s : State) (f : Proctor → Proctor) : (s.modProctor f).credits = s.credits := rfl
@[simp] theorem State.modProctor_opens (s : State) (f : Proctor → Proctor) : (s.modProctor f).opens = s.opens := rfl
@[simp] theorem State.modProctor_notices (s : State) (f : Proctor → Proctor) : (s.modProctor f).notices = s.notices := rfl
@[simp] theorem State.modProctor_confs (s : State) (f : Proctor → Proctor) : (s.modProctor f).confs = s.confs := rfl
@[simp] theorem State.modProctor_wavefronts (s : State) (f : Proctor → Proctor) : (s.modProctor f).wavefronts = s.wavefronts := rfl
@[simp] theorem State.modProctor_groups (s : State) (f : Proctor → Proctor) : (s.modProctor f).groups = s.groups := rfl
@[simp] theorem State.modProctor_bells (s : State) (f : Proctor → Proctor) : (s.modProctor f).bells = s.bells := rfl
@[simp] theorem State.modProctor_kvbase (s : State) (f : Proctor → Proctor) : (s.modProctor f).kvbase = s.kvbase := rfl
@[simp] theorem State.modProctor_kvcnt (s : State) (f : Proctor → Proctor) : (s.modProctor f).kvcnt = s.kvcnt := rfl
@[simp] theorem State.modProctor_flbase (s : State) (f : Proctor → Proctor) : (s.modProctor f).flbase = s.flbase := rfl
@[simp] theorem State.modProctor_ssbase (s : State) (f : Proctor → Proctor) : (s.modProctor f).ssbase = s.ssbase := rfl
@[simp] theorem State.modProctor_sslen (s : State) (f : Proctor → Proctor) : (s.modProctor f).sslen = s.sslen := rfl
@[simp] theorem State.modProctor_flHead (s : State) (f : Proctor → Proctor) : (s.modProctor f).flHead = s.flHead := rfl
@[simp] theorem State.modProctor_flCount (s : State) (f : Proctor → Proctor) : (s.modProctor f).flCount = s.flCount := rfl
@[simp] theorem State.modProctor_flPushes (s : State) (f : Proctor → Proctor) : (s.modProctor f).flPushes = s.flPushes := rfl
@[simp] theorem State.modProctor_flStuck (s : State) (f : Proctor → Proctor) : (s.modProctor f).flStuck = s.flStuck := rfl
@[simp] theorem State.modProctor_flParked (s : State) (f : Proctor → Proctor) : (s.modProctor f).flParked = s.flParked := rfl
@[simp] theorem State.modProctor_blocks (s : State) (f : Proctor → Proctor) : (s.modProctor f).blocks = s.blocks := rfl
@[simp] theorem State.modProctor_units (s : State) (f : Proctor → Proctor) : (s.modProctor f).units = s.units := rfl
@[simp] theorem State.modProctor_lse (s : State) (f : Proctor → Proctor) : (s.modProctor f).lse = s.lse := rfl
@[simp] theorem State.modProctor_lsePost (s : State) (f : Proctor → Proctor) : (s.modProctor f).lsePost = s.lsePost := rfl
@[simp] theorem State.modProctor_lseWin (s : State) (f : Proctor → Proctor) : (s.modProctor f).lseWin = s.lseWin := rfl
@[simp] theorem State.modProctor_lq (s : State) (f : Proctor → Proctor) : (s.modProctor f).lq = s.lq := rfl
@[simp] theorem State.modProctor_lqSram (s : State) (f : Proctor → Proctor) : (s.modProctor f).lqSram = s.lqSram := rfl
@[simp] theorem State.modProctor_rq (s : State) (f : Proctor → Proctor) : (s.modProctor f).rq = s.rq := rfl
@[simp] theorem State.modProctor_fqLost (s : State) (f : Proctor → Proctor) : (s.modProctor f).fqLost = s.fqLost := rfl
@[simp] theorem State.modProctor_urgmap (s : State) (f : Proctor → Proctor) : (s.modProctor f).urgmap = s.urgmap := rfl
@[simp] theorem State.modProctor_dwin (s : State) (f : Proctor → Proctor) : (s.modProctor f).dwin = s.dwin := rfl
@[simp] theorem State.modProctor_ccinv (s : State) (f : Proctor → Proctor) : (s.modProctor f).ccinv = s.ccinv := rfl
@[simp] theorem State.modProctor_ptroot (s : State) (f : Proctor → Proctor) : (s.modProctor f).ptroot = s.ptroot := rfl
@[simp] theorem State.modProctor_fres (s : State) (f : Proctor → Proctor) : (s.modProctor f).fres = s.fres := rfl
@[simp] theorem State.modProctor_fresWait (s : State) (f : Proctor → Proctor) : (s.modProctor f).fresWait = s.fresWait := rfl
@[simp] theorem State.modProctor_msixTable (s : State) (f : Proctor → Proctor) : (s.modProctor f).msixTable = s.msixTable := rfl
@[simp] theorem State.modProctor_pba (s : State) (f : Proctor → Proctor) : (s.modProctor f).pba = s.pba := rfl
@[simp] theorem State.modProctor_irqs (s : State) (f : Proctor → Proctor) : (s.modProctor f).irqs = s.irqs := rfl
@[simp] theorem State.modProctor_hostReads (s : State) (f : Proctor → Proctor) : (s.modProctor f).hostReads = s.hostReads := rfl
@[simp] theorem State.modProctor_bar2 (s : State) (f : Proctor → Proctor) : (s.modProctor f).bar2 = s.bar2 := rfl
@[simp] theorem State.modProctor_barGot (s : State) (f : Proctor → Proctor) : (s.modProctor f).barGot = s.barGot := rfl
@[simp] theorem State.modProctor_barPut (s : State) (f : Proctor → Proctor) : (s.modProctor f).barPut = s.barPut := rfl
@[simp] theorem State.modProctor_cache (s : State) (f : Proctor → Proctor) : (s.modProctor f).cache = s.cache := rfl
@[simp] theorem State.modProctor_dieTlb (s : State) (f : Proctor → Proctor) : (s.modProctor f).dieTlb = s.dieTlb := rfl
@[simp] theorem State.modProctor_regions (s : State) (f : Proctor → Proctor) : (s.modProctor f).regions = s.regions := rfl
@[simp] theorem State.modProctor_nextRegion (s : State) (f : Proctor → Proctor) : (s.modProctor f).nextRegion = s.nextRegion := rfl
@[simp] theorem State.modProctor_retired (s : State) (f : Proctor → Proctor) : (s.modProctor f).retired = s.retired := rfl
@[simp] theorem State.modProctor_lqRr (s : State) (f : Proctor → Proctor) : (s.modProctor f).lqRr = s.lqRr := rfl
@[simp] theorem State.modProctor_pktCycle (s : State) (f : Proctor → Proctor) : (s.modProctor f).pktCycle = s.pktCycle := rfl
@[simp] theorem State.modProctor_clock (s : State) (f : Proctor → Proctor) : (s.modProctor f).clock = s.clock := rfl
@[simp] theorem State.modProctor_cur (s : State) (f : Proctor → Proctor) : (s.modProctor f).cur = s.cur := rfl
@[simp] theorem State.modProctor_agenda (s : State) (f : Proctor → Proctor) : (s.modProctor f).agenda = s.agenda := rfl
@[simp] theorem State.modProctor_last (s : State) (f : Proctor → Proctor) : (s.modProctor f).last = s.last := rfl
@[simp] theorem State.modProctor_ctx (s : State) (f : Proctor → Proctor) : (s.modProctor f).ctx = s.ctx := rfl
@[simp] theorem State.modProctor_redirect (s : State) (f : Proctor → Proctor) : (s.modProctor f).redirect = s.redirect := rfl
@[simp] theorem State.modProctor_nextId (s : State) (f : Proctor → Proctor) : (s.modProctor f).nextId = s.nextId := rfl
@[simp] theorem State.modProctor_nextFree (s : State) (f : Proctor → Proctor) : (s.modProctor f).nextFree = s.nextFree := rfl
@[simp] theorem State.modProctor_apart (s : State) (f : Proctor → Proctor) : (s.modProctor f).apart = s.apart := rfl
@[simp] theorem State.modProctor_early (s : State) (f : Proctor → Proctor) : (s.modProctor f).early = s.early := rfl
@[simp] theorem State.modProctor_late (s : State) (f : Proctor → Proctor) : (s.modProctor f).late = s.late := rfl

@[simp] theorem Column.setBank_ls (c : Column) (b : Nat) (k : Bank) : (c.setBank b k).ls = c.ls := rfl
@[simp] theorem Column.setBank_lsFlip (c : Column) (b : Nat) (k : Bank) : (c.setBank b k).lsFlip = c.lsFlip := rfl
@[simp] theorem Column.setBank_stack (c : Column) (b : Nat) (k : Bank) : (c.setBank b k).stack = c.stack := rfl
@[simp] theorem Column.setBank_stkFlip (c : Column) (b : Nat) (k : Bank) : (c.setBank b k).stkFlip = c.stkFlip := rfl
@[simp] theorem Column.setBank_running (c : Column) (b : Nat) (k : Bank) : (c.setBank b k).running = c.running := rfl
@[simp] theorem Column.setBank_inTrap (c : Column) (b : Nat) (k : Bank) : (c.setBank b k).inTrap = c.inTrap := rfl
@[simp] theorem Column.setBank_hold (c : Column) (b : Nat) (k : Bank) : (c.setBank b k).hold = c.hold := rfl
@[simp] theorem Column.setBank_cause (c : Column) (b : Nat) (k : Bank) : (c.setBank b k).cause = c.cause := rfl
@[simp] theorem Column.setBank_tval (c : Column) (b : Nat) (k : Bank) : (c.setBank b k).tval = c.tval := rfl
@[simp] theorem Column.setBank_tepc (c : Column) (b : Nat) (k : Bank) : (c.setBank b k).tepc = c.tepc := rfl
@[simp] theorem Column.setBank_tvec (c : Column) (b : Nat) (k : Bank) : (c.setBank b k).tvec = c.tvec := rfl
@[simp] theorem Column.setBank_tmsg (c : Column) (b : Nat) (k : Bank) : (c.setBank b k).tmsg = c.tmsg := rfl
@[simp] theorem Column.setBank_cycle (c : Column) (b : Nat) (k : Bank) : (c.setBank b k).cycle = c.cycle := rfl
@[simp] theorem Column.setBank_snapv (c : Column) (b : Nat) (k : Bank) : (c.setBank b k).snapv = c.snapv := rfl
@[simp] theorem Column.setBank_numst (c : Column) (b : Nat) (k : Bank) : (c.setBank b k).numst = c.numst := rfl
@[simp] theorem Column.setBank_ftzcnt (c : Column) (b : Nat) (k : Bank) : (c.setBank b k).ftzcnt = c.ftzcnt := rfl
@[simp] theorem Column.setBank_promo (c : Column) (b : Nat) (k : Bank) : (c.setBank b k).promo = c.promo := rfl
@[simp] theorem Column.setBank_earlyp (c : Column) (b : Nat) (k : Bank) : (c.setBank b k).earlyp = c.earlyp := rfl
@[simp] theorem Column.setBank_badlist (c : Column) (b : Nat) (k : Bank) : (c.setBank b k).badlist = c.badlist := rfl
@[simp] theorem Column.setBank_wscale (c : Column) (b : Nat) (k : Bank) : (c.setBank b k).wscale = c.wscale := rfl
@[simp] theorem Column.setBank_htab (c : Column) (b : Nat) (k : Bank) : (c.setBank b k).htab = c.htab := rfl
@[simp] theorem Column.setBank_tiles (c : Column) (b : Nat) (k : Bank) : (c.setBank b k).tiles = c.tiles := rfl
@[simp] theorem Column.setBank_mq (c : Column) (b : Nat) (k : Bank) : (c.setBank b k).mq = c.mq := rfl
@[simp] theorem Column.setBank_mrun (c : Column) (b : Nat) (k : Bank) : (c.setBank b k).mrun = c.mrun := rfl
@[simp] theorem Column.setBank_mfree (c : Column) (b : Nat) (k : Bank) : (c.setBank b k).mfree = c.mfree := rfl
@[simp] theorem Column.setBank_copyq (c : Column) (b : Nat) (k : Bank) : (c.setBank b k).copyq = c.copyq := rfl
@[simp] theorem Column.setBank_crun (c : Column) (b : Nat) (k : Bank) : (c.setBank b k).crun = c.crun := rfl
@[simp] theorem Column.setBank_csusp (c : Column) (b : Nat) (k : Bank) : (c.setBank b k).csusp = c.csusp := rfl
@[simp] theorem Column.setBank_templates (c : Column) (b : Nat) (k : Bank) : (c.setBank b k).templates = c.templates := rfl
@[simp] theorem Column.setBank_kvq (c : Column) (b : Nat) (k : Bank) : (c.setBank b k).kvq = c.kvq := rfl
@[simp] theorem Column.setBank_ssq (c : Column) (b : Nat) (k : Bank) : (c.setBank b k).ssq = c.ssq := rfl
@[simp] theorem Column.setBank_ktb (c : Column) (b : Nat) (k : Bank) : (c.setBank b k).ktb = c.ktb := rfl
@[simp] theorem Column.setBank_ktbrr (c : Column) (b : Nat) (k : Bank) : (c.setBank b k).ktbrr = c.ktbrr := rfl
@[simp] theorem Column.setBank_chans (c : Column) (b : Nat) (k : Bank) : (c.setBank b k).chans = c.chans := rfl
@[simp] theorem Column.setBank_outs (c : Column) (b : Nat) (k : Bank) : (c.setBank b k).outs = c.outs := rfl
@[simp] theorem Column.setBank_inj (c : Column) (b : Nat) (k : Bank) : (c.setBank b k).inj = c.inj := rfl
@[simp] theorem Column.setBank_handlers (c : Column) (b : Nat) (k : Bank) : (c.setBank b k).handlers = c.handlers := rfl
@[simp] theorem Column.setBank_rr (c : Column) (b : Nat) (k : Bank) : (c.setBank b k).rr = c.rr := rfl
@[simp] theorem Column.setBank_starve (c : Column) (b : Nat) (k : Bank) : (c.setBank b k).starve = c.starve := rfl
@[simp] theorem Column.setBank_boost (c : Column) (b : Nat) (k : Bank) : (c.setBank b k).boost = c.boost := rfl
@[simp] theorem Column.setBank_refire (c : Column) (b : Nat) (k : Bank) : (c.setBank b k).refire = c.refire := rfl
@[simp] theorem Column.setBank_stepping (c : Column) (b : Nat) (k : Bank) : (c.setBank b k).stepping = c.stepping := rfl
@[simp] theorem Column.setBank_emptyRep (c : Column) (b : Nat) (k : Bank) : (c.setBank b k).emptyRep = c.emptyRep := rfl
@[simp] theorem Column.setBank_joins (c : Column) (b : Nat) (k : Bank) : (c.setBank b k).joins = c.joins := rfl
@[simp] theorem Column.setBank_region (c : Column) (b : Nat) (k : Bank) : (c.setBank b k).region = c.region := rfl
@[simp] theorem Column.setBank_ctx (c : Column) (b : Nat) (k : Bank) : (c.setBank b k).ctx = c.ctx := rfl
@[simp] theorem Column.setBank_rseq (c : Column) (b : Nat) (k : Bank) : (c.setBank b k).rseq = c.rseq := rfl
@[simp] theorem Column.setBank_startAt (c : Column) (b : Nat) (k : Bank) : (c.setBank b k).startAt = c.startAt := rfl
@[simp] theorem Column.setBank_busy (c : Column) (b : Nat) (k : Bank) : (c.setBank b k).busy = c.busy := rfl
@[simp] theorem Column.setBank_tlb (c : Column) (b : Nat) (k : Bank) : (c.setBank b k).tlb = c.tlb := rfl
@[simp] theorem Column.setBank_waves (c : Column) (b : Nat) (k : Bank) : (c.setBank b k).waves = c.waves := rfl
@[simp] theorem Column.setBank_nextTag (c : Column) (b : Nat) (k : Bank) : (c.setBank b k).nextTag = c.nextTag := rfl
@[simp] theorem Column.setBank_retained (c : Column) (b : Nat) (k : Bank) : (c.setBank b k).retained = c.retained := rfl
@[simp] theorem Column.setBank_cyFlags (c : Column) (b : Nat) (k : Bank) : (c.setBank b k).cyFlags = c.cyFlags := rfl
@[simp] theorem Column.setBank_cyFtz (c : Column) (b : Nat) (k : Bank) : (c.setBank b k).cyFtz = c.cyFtz := rfl
@[simp] theorem Column.setBank_cyEarly (c : Column) (b : Nat) (k : Bank) : (c.setBank b k).cyEarly = c.cyEarly := rfl
@[simp] theorem Column.setBank_starveAt (c : Column) (b : Nat) (k : Bank) : (c.setBank b k).starveAt = c.starveAt := rfl
@[simp] theorem Column.setBank_areas (c : Column) (b : Nat) (k : Bank) : (c.setBank b k).areas = c.areas := rfl
@[simp] theorem Column.setBank_short (c : Column) (b : Nat) (k : Bank) : (c.setBank b k).short = c.short := rfl
@[simp] theorem Column.setBank_prevOuts (c : Column) (b : Nat) (k : Bank) : (c.setBank b k).prevOuts = c.prevOuts := rfl
@[simp] theorem Column.setBank_mdone (c : Column) (b : Nat) (k : Bank) : (c.setBank b k).mdone = c.mdone := rfl
@[simp] theorem Column.setBank_engOrders (c : Column) (b : Nat) (k : Bank) : (c.setBank b k).engOrders = c.engOrders := rfl

@[simp] theorem Column.modBank_ls (c : Column) (b : Nat) (f : Bank → Bank) : (c.modBank b f).ls = c.ls := rfl
@[simp] theorem Column.modBank_lsFlip (c : Column) (b : Nat) (f : Bank → Bank) : (c.modBank b f).lsFlip = c.lsFlip := rfl
@[simp] theorem Column.modBank_stack (c : Column) (b : Nat) (f : Bank → Bank) : (c.modBank b f).stack = c.stack := rfl
@[simp] theorem Column.modBank_stkFlip (c : Column) (b : Nat) (f : Bank → Bank) : (c.modBank b f).stkFlip = c.stkFlip := rfl
@[simp] theorem Column.modBank_running (c : Column) (b : Nat) (f : Bank → Bank) : (c.modBank b f).running = c.running := rfl
@[simp] theorem Column.modBank_inTrap (c : Column) (b : Nat) (f : Bank → Bank) : (c.modBank b f).inTrap = c.inTrap := rfl
@[simp] theorem Column.modBank_hold (c : Column) (b : Nat) (f : Bank → Bank) : (c.modBank b f).hold = c.hold := rfl
@[simp] theorem Column.modBank_cause (c : Column) (b : Nat) (f : Bank → Bank) : (c.modBank b f).cause = c.cause := rfl
@[simp] theorem Column.modBank_tval (c : Column) (b : Nat) (f : Bank → Bank) : (c.modBank b f).tval = c.tval := rfl
@[simp] theorem Column.modBank_tepc (c : Column) (b : Nat) (f : Bank → Bank) : (c.modBank b f).tepc = c.tepc := rfl
@[simp] theorem Column.modBank_tvec (c : Column) (b : Nat) (f : Bank → Bank) : (c.modBank b f).tvec = c.tvec := rfl
@[simp] theorem Column.modBank_tmsg (c : Column) (b : Nat) (f : Bank → Bank) : (c.modBank b f).tmsg = c.tmsg := rfl
@[simp] theorem Column.modBank_cycle (c : Column) (b : Nat) (f : Bank → Bank) : (c.modBank b f).cycle = c.cycle := rfl
@[simp] theorem Column.modBank_snapv (c : Column) (b : Nat) (f : Bank → Bank) : (c.modBank b f).snapv = c.snapv := rfl
@[simp] theorem Column.modBank_numst (c : Column) (b : Nat) (f : Bank → Bank) : (c.modBank b f).numst = c.numst := rfl
@[simp] theorem Column.modBank_ftzcnt (c : Column) (b : Nat) (f : Bank → Bank) : (c.modBank b f).ftzcnt = c.ftzcnt := rfl
@[simp] theorem Column.modBank_promo (c : Column) (b : Nat) (f : Bank → Bank) : (c.modBank b f).promo = c.promo := rfl
@[simp] theorem Column.modBank_earlyp (c : Column) (b : Nat) (f : Bank → Bank) : (c.modBank b f).earlyp = c.earlyp := rfl
@[simp] theorem Column.modBank_badlist (c : Column) (b : Nat) (f : Bank → Bank) : (c.modBank b f).badlist = c.badlist := rfl
@[simp] theorem Column.modBank_wscale (c : Column) (b : Nat) (f : Bank → Bank) : (c.modBank b f).wscale = c.wscale := rfl
@[simp] theorem Column.modBank_htab (c : Column) (b : Nat) (f : Bank → Bank) : (c.modBank b f).htab = c.htab := rfl
@[simp] theorem Column.modBank_tiles (c : Column) (b : Nat) (f : Bank → Bank) : (c.modBank b f).tiles = c.tiles := rfl
@[simp] theorem Column.modBank_mq (c : Column) (b : Nat) (f : Bank → Bank) : (c.modBank b f).mq = c.mq := rfl
@[simp] theorem Column.modBank_mrun (c : Column) (b : Nat) (f : Bank → Bank) : (c.modBank b f).mrun = c.mrun := rfl
@[simp] theorem Column.modBank_mfree (c : Column) (b : Nat) (f : Bank → Bank) : (c.modBank b f).mfree = c.mfree := rfl
@[simp] theorem Column.modBank_copyq (c : Column) (b : Nat) (f : Bank → Bank) : (c.modBank b f).copyq = c.copyq := rfl
@[simp] theorem Column.modBank_crun (c : Column) (b : Nat) (f : Bank → Bank) : (c.modBank b f).crun = c.crun := rfl
@[simp] theorem Column.modBank_csusp (c : Column) (b : Nat) (f : Bank → Bank) : (c.modBank b f).csusp = c.csusp := rfl
@[simp] theorem Column.modBank_templates (c : Column) (b : Nat) (f : Bank → Bank) : (c.modBank b f).templates = c.templates := rfl
@[simp] theorem Column.modBank_kvq (c : Column) (b : Nat) (f : Bank → Bank) : (c.modBank b f).kvq = c.kvq := rfl
@[simp] theorem Column.modBank_ssq (c : Column) (b : Nat) (f : Bank → Bank) : (c.modBank b f).ssq = c.ssq := rfl
@[simp] theorem Column.modBank_ktb (c : Column) (b : Nat) (f : Bank → Bank) : (c.modBank b f).ktb = c.ktb := rfl
@[simp] theorem Column.modBank_ktbrr (c : Column) (b : Nat) (f : Bank → Bank) : (c.modBank b f).ktbrr = c.ktbrr := rfl
@[simp] theorem Column.modBank_chans (c : Column) (b : Nat) (f : Bank → Bank) : (c.modBank b f).chans = c.chans := rfl
@[simp] theorem Column.modBank_outs (c : Column) (b : Nat) (f : Bank → Bank) : (c.modBank b f).outs = c.outs := rfl
@[simp] theorem Column.modBank_inj (c : Column) (b : Nat) (f : Bank → Bank) : (c.modBank b f).inj = c.inj := rfl
@[simp] theorem Column.modBank_handlers (c : Column) (b : Nat) (f : Bank → Bank) : (c.modBank b f).handlers = c.handlers := rfl
@[simp] theorem Column.modBank_rr (c : Column) (b : Nat) (f : Bank → Bank) : (c.modBank b f).rr = c.rr := rfl
@[simp] theorem Column.modBank_starve (c : Column) (b : Nat) (f : Bank → Bank) : (c.modBank b f).starve = c.starve := rfl
@[simp] theorem Column.modBank_boost (c : Column) (b : Nat) (f : Bank → Bank) : (c.modBank b f).boost = c.boost := rfl
@[simp] theorem Column.modBank_refire (c : Column) (b : Nat) (f : Bank → Bank) : (c.modBank b f).refire = c.refire := rfl
@[simp] theorem Column.modBank_stepping (c : Column) (b : Nat) (f : Bank → Bank) : (c.modBank b f).stepping = c.stepping := rfl
@[simp] theorem Column.modBank_emptyRep (c : Column) (b : Nat) (f : Bank → Bank) : (c.modBank b f).emptyRep = c.emptyRep := rfl
@[simp] theorem Column.modBank_joins (c : Column) (b : Nat) (f : Bank → Bank) : (c.modBank b f).joins = c.joins := rfl
@[simp] theorem Column.modBank_region (c : Column) (b : Nat) (f : Bank → Bank) : (c.modBank b f).region = c.region := rfl
@[simp] theorem Column.modBank_ctx (c : Column) (b : Nat) (f : Bank → Bank) : (c.modBank b f).ctx = c.ctx := rfl
@[simp] theorem Column.modBank_rseq (c : Column) (b : Nat) (f : Bank → Bank) : (c.modBank b f).rseq = c.rseq := rfl
@[simp] theorem Column.modBank_startAt (c : Column) (b : Nat) (f : Bank → Bank) : (c.modBank b f).startAt = c.startAt := rfl
@[simp] theorem Column.modBank_busy (c : Column) (b : Nat) (f : Bank → Bank) : (c.modBank b f).busy = c.busy := rfl
@[simp] theorem Column.modBank_tlb (c : Column) (b : Nat) (f : Bank → Bank) : (c.modBank b f).tlb = c.tlb := rfl
@[simp] theorem Column.modBank_waves (c : Column) (b : Nat) (f : Bank → Bank) : (c.modBank b f).waves = c.waves := rfl
@[simp] theorem Column.modBank_nextTag (c : Column) (b : Nat) (f : Bank → Bank) : (c.modBank b f).nextTag = c.nextTag := rfl
@[simp] theorem Column.modBank_retained (c : Column) (b : Nat) (f : Bank → Bank) : (c.modBank b f).retained = c.retained := rfl
@[simp] theorem Column.modBank_cyFlags (c : Column) (b : Nat) (f : Bank → Bank) : (c.modBank b f).cyFlags = c.cyFlags := rfl
@[simp] theorem Column.modBank_cyFtz (c : Column) (b : Nat) (f : Bank → Bank) : (c.modBank b f).cyFtz = c.cyFtz := rfl
@[simp] theorem Column.modBank_cyEarly (c : Column) (b : Nat) (f : Bank → Bank) : (c.modBank b f).cyEarly = c.cyEarly := rfl
@[simp] theorem Column.modBank_starveAt (c : Column) (b : Nat) (f : Bank → Bank) : (c.modBank b f).starveAt = c.starveAt := rfl
@[simp] theorem Column.modBank_areas (c : Column) (b : Nat) (f : Bank → Bank) : (c.modBank b f).areas = c.areas := rfl
@[simp] theorem Column.modBank_short (c : Column) (b : Nat) (f : Bank → Bank) : (c.modBank b f).short = c.short := rfl
@[simp] theorem Column.modBank_prevOuts (c : Column) (b : Nat) (f : Bank → Bank) : (c.modBank b f).prevOuts = c.prevOuts := rfl
@[simp] theorem Column.modBank_mdone (c : Column) (b : Nat) (f : Bank → Bank) : (c.modBank b f).mdone = c.mdone := rfl
@[simp] theorem Column.modBank_engOrders (c : Column) (b : Nat) (f : Bank → Bank) : (c.modBank b f).engOrders = c.engOrders := rfl

@[simp] theorem Column.modFiring_ls (c : Column) (b : Nat) (f : Firing → Firing) : (c.modFiring b f).ls = c.ls := rfl
@[simp] theorem Column.modFiring_lsFlip (c : Column) (b : Nat) (f : Firing → Firing) : (c.modFiring b f).lsFlip = c.lsFlip := rfl
@[simp] theorem Column.modFiring_stack (c : Column) (b : Nat) (f : Firing → Firing) : (c.modFiring b f).stack = c.stack := rfl
@[simp] theorem Column.modFiring_stkFlip (c : Column) (b : Nat) (f : Firing → Firing) : (c.modFiring b f).stkFlip = c.stkFlip := rfl
@[simp] theorem Column.modFiring_running (c : Column) (b : Nat) (f : Firing → Firing) : (c.modFiring b f).running = c.running := rfl
@[simp] theorem Column.modFiring_inTrap (c : Column) (b : Nat) (f : Firing → Firing) : (c.modFiring b f).inTrap = c.inTrap := rfl
@[simp] theorem Column.modFiring_hold (c : Column) (b : Nat) (f : Firing → Firing) : (c.modFiring b f).hold = c.hold := rfl
@[simp] theorem Column.modFiring_cause (c : Column) (b : Nat) (f : Firing → Firing) : (c.modFiring b f).cause = c.cause := rfl
@[simp] theorem Column.modFiring_tval (c : Column) (b : Nat) (f : Firing → Firing) : (c.modFiring b f).tval = c.tval := rfl
@[simp] theorem Column.modFiring_tepc (c : Column) (b : Nat) (f : Firing → Firing) : (c.modFiring b f).tepc = c.tepc := rfl
@[simp] theorem Column.modFiring_tvec (c : Column) (b : Nat) (f : Firing → Firing) : (c.modFiring b f).tvec = c.tvec := rfl
@[simp] theorem Column.modFiring_tmsg (c : Column) (b : Nat) (f : Firing → Firing) : (c.modFiring b f).tmsg = c.tmsg := rfl
@[simp] theorem Column.modFiring_cycle (c : Column) (b : Nat) (f : Firing → Firing) : (c.modFiring b f).cycle = c.cycle := rfl
@[simp] theorem Column.modFiring_snapv (c : Column) (b : Nat) (f : Firing → Firing) : (c.modFiring b f).snapv = c.snapv := rfl
@[simp] theorem Column.modFiring_numst (c : Column) (b : Nat) (f : Firing → Firing) : (c.modFiring b f).numst = c.numst := rfl
@[simp] theorem Column.modFiring_ftzcnt (c : Column) (b : Nat) (f : Firing → Firing) : (c.modFiring b f).ftzcnt = c.ftzcnt := rfl
@[simp] theorem Column.modFiring_promo (c : Column) (b : Nat) (f : Firing → Firing) : (c.modFiring b f).promo = c.promo := rfl
@[simp] theorem Column.modFiring_earlyp (c : Column) (b : Nat) (f : Firing → Firing) : (c.modFiring b f).earlyp = c.earlyp := rfl
@[simp] theorem Column.modFiring_badlist (c : Column) (b : Nat) (f : Firing → Firing) : (c.modFiring b f).badlist = c.badlist := rfl
@[simp] theorem Column.modFiring_wscale (c : Column) (b : Nat) (f : Firing → Firing) : (c.modFiring b f).wscale = c.wscale := rfl
@[simp] theorem Column.modFiring_htab (c : Column) (b : Nat) (f : Firing → Firing) : (c.modFiring b f).htab = c.htab := rfl
@[simp] theorem Column.modFiring_tiles (c : Column) (b : Nat) (f : Firing → Firing) : (c.modFiring b f).tiles = c.tiles := rfl
@[simp] theorem Column.modFiring_mq (c : Column) (b : Nat) (f : Firing → Firing) : (c.modFiring b f).mq = c.mq := rfl
@[simp] theorem Column.modFiring_mrun (c : Column) (b : Nat) (f : Firing → Firing) : (c.modFiring b f).mrun = c.mrun := rfl
@[simp] theorem Column.modFiring_mfree (c : Column) (b : Nat) (f : Firing → Firing) : (c.modFiring b f).mfree = c.mfree := rfl
@[simp] theorem Column.modFiring_copyq (c : Column) (b : Nat) (f : Firing → Firing) : (c.modFiring b f).copyq = c.copyq := rfl
@[simp] theorem Column.modFiring_crun (c : Column) (b : Nat) (f : Firing → Firing) : (c.modFiring b f).crun = c.crun := rfl
@[simp] theorem Column.modFiring_csusp (c : Column) (b : Nat) (f : Firing → Firing) : (c.modFiring b f).csusp = c.csusp := rfl
@[simp] theorem Column.modFiring_templates (c : Column) (b : Nat) (f : Firing → Firing) : (c.modFiring b f).templates = c.templates := rfl
@[simp] theorem Column.modFiring_kvq (c : Column) (b : Nat) (f : Firing → Firing) : (c.modFiring b f).kvq = c.kvq := rfl
@[simp] theorem Column.modFiring_ssq (c : Column) (b : Nat) (f : Firing → Firing) : (c.modFiring b f).ssq = c.ssq := rfl
@[simp] theorem Column.modFiring_ktb (c : Column) (b : Nat) (f : Firing → Firing) : (c.modFiring b f).ktb = c.ktb := rfl
@[simp] theorem Column.modFiring_ktbrr (c : Column) (b : Nat) (f : Firing → Firing) : (c.modFiring b f).ktbrr = c.ktbrr := rfl
@[simp] theorem Column.modFiring_chans (c : Column) (b : Nat) (f : Firing → Firing) : (c.modFiring b f).chans = c.chans := rfl
@[simp] theorem Column.modFiring_outs (c : Column) (b : Nat) (f : Firing → Firing) : (c.modFiring b f).outs = c.outs := rfl
@[simp] theorem Column.modFiring_inj (c : Column) (b : Nat) (f : Firing → Firing) : (c.modFiring b f).inj = c.inj := rfl
@[simp] theorem Column.modFiring_handlers (c : Column) (b : Nat) (f : Firing → Firing) : (c.modFiring b f).handlers = c.handlers := rfl
@[simp] theorem Column.modFiring_rr (c : Column) (b : Nat) (f : Firing → Firing) : (c.modFiring b f).rr = c.rr := rfl
@[simp] theorem Column.modFiring_starve (c : Column) (b : Nat) (f : Firing → Firing) : (c.modFiring b f).starve = c.starve := rfl
@[simp] theorem Column.modFiring_boost (c : Column) (b : Nat) (f : Firing → Firing) : (c.modFiring b f).boost = c.boost := rfl
@[simp] theorem Column.modFiring_refire (c : Column) (b : Nat) (f : Firing → Firing) : (c.modFiring b f).refire = c.refire := rfl
@[simp] theorem Column.modFiring_stepping (c : Column) (b : Nat) (f : Firing → Firing) : (c.modFiring b f).stepping = c.stepping := rfl
@[simp] theorem Column.modFiring_emptyRep (c : Column) (b : Nat) (f : Firing → Firing) : (c.modFiring b f).emptyRep = c.emptyRep := rfl
@[simp] theorem Column.modFiring_joins (c : Column) (b : Nat) (f : Firing → Firing) : (c.modFiring b f).joins = c.joins := rfl
@[simp] theorem Column.modFiring_region (c : Column) (b : Nat) (f : Firing → Firing) : (c.modFiring b f).region = c.region := rfl
@[simp] theorem Column.modFiring_ctx (c : Column) (b : Nat) (f : Firing → Firing) : (c.modFiring b f).ctx = c.ctx := rfl
@[simp] theorem Column.modFiring_rseq (c : Column) (b : Nat) (f : Firing → Firing) : (c.modFiring b f).rseq = c.rseq := rfl
@[simp] theorem Column.modFiring_startAt (c : Column) (b : Nat) (f : Firing → Firing) : (c.modFiring b f).startAt = c.startAt := rfl
@[simp] theorem Column.modFiring_busy (c : Column) (b : Nat) (f : Firing → Firing) : (c.modFiring b f).busy = c.busy := rfl
@[simp] theorem Column.modFiring_tlb (c : Column) (b : Nat) (f : Firing → Firing) : (c.modFiring b f).tlb = c.tlb := rfl
@[simp] theorem Column.modFiring_waves (c : Column) (b : Nat) (f : Firing → Firing) : (c.modFiring b f).waves = c.waves := rfl
@[simp] theorem Column.modFiring_nextTag (c : Column) (b : Nat) (f : Firing → Firing) : (c.modFiring b f).nextTag = c.nextTag := rfl
@[simp] theorem Column.modFiring_retained (c : Column) (b : Nat) (f : Firing → Firing) : (c.modFiring b f).retained = c.retained := rfl
@[simp] theorem Column.modFiring_cyFlags (c : Column) (b : Nat) (f : Firing → Firing) : (c.modFiring b f).cyFlags = c.cyFlags := rfl
@[simp] theorem Column.modFiring_cyFtz (c : Column) (b : Nat) (f : Firing → Firing) : (c.modFiring b f).cyFtz = c.cyFtz := rfl
@[simp] theorem Column.modFiring_cyEarly (c : Column) (b : Nat) (f : Firing → Firing) : (c.modFiring b f).cyEarly = c.cyEarly := rfl
@[simp] theorem Column.modFiring_starveAt (c : Column) (b : Nat) (f : Firing → Firing) : (c.modFiring b f).starveAt = c.starveAt := rfl
@[simp] theorem Column.modFiring_areas (c : Column) (b : Nat) (f : Firing → Firing) : (c.modFiring b f).areas = c.areas := rfl
@[simp] theorem Column.modFiring_short (c : Column) (b : Nat) (f : Firing → Firing) : (c.modFiring b f).short = c.short := rfl
@[simp] theorem Column.modFiring_prevOuts (c : Column) (b : Nat) (f : Firing → Firing) : (c.modFiring b f).prevOuts = c.prevOuts := rfl
@[simp] theorem Column.modFiring_mdone (c : Column) (b : Nat) (f : Firing → Firing) : (c.modFiring b f).mdone = c.mdone := rfl
@[simp] theorem Column.modFiring_engOrders (c : Column) (b : Nat) (f : Firing → Firing) : (c.modFiring b f).engOrders = c.engOrders := rfl

@[simp] theorem Column.wrLs_stack (c : Column) (a : Nat) (v : Byte) : (c.wrLs a v).stack = c.stack := rfl
@[simp] theorem Column.wrLs_stkFlip (c : Column) (a : Nat) (v : Byte) : (c.wrLs a v).stkFlip = c.stkFlip := rfl
@[simp] theorem Column.wrLs_banks (c : Column) (a : Nat) (v : Byte) : (c.wrLs a v).banks = c.banks := rfl
@[simp] theorem Column.wrLs_running (c : Column) (a : Nat) (v : Byte) : (c.wrLs a v).running = c.running := rfl
@[simp] theorem Column.wrLs_inTrap (c : Column) (a : Nat) (v : Byte) : (c.wrLs a v).inTrap = c.inTrap := rfl
@[simp] theorem Column.wrLs_hold (c : Column) (a : Nat) (v : Byte) : (c.wrLs a v).hold = c.hold := rfl
@[simp] theorem Column.wrLs_cause (c : Column) (a : Nat) (v : Byte) : (c.wrLs a v).cause = c.cause := rfl
@[simp] theorem Column.wrLs_tval (c : Column) (a : Nat) (v : Byte) : (c.wrLs a v).tval = c.tval := rfl
@[simp] theorem Column.wrLs_tepc (c : Column) (a : Nat) (v : Byte) : (c.wrLs a v).tepc = c.tepc := rfl
@[simp] theorem Column.wrLs_tvec (c : Column) (a : Nat) (v : Byte) : (c.wrLs a v).tvec = c.tvec := rfl
@[simp] theorem Column.wrLs_tmsg (c : Column) (a : Nat) (v : Byte) : (c.wrLs a v).tmsg = c.tmsg := rfl
@[simp] theorem Column.wrLs_cycle (c : Column) (a : Nat) (v : Byte) : (c.wrLs a v).cycle = c.cycle := rfl
@[simp] theorem Column.wrLs_snapv (c : Column) (a : Nat) (v : Byte) : (c.wrLs a v).snapv = c.snapv := rfl
@[simp] theorem Column.wrLs_numst (c : Column) (a : Nat) (v : Byte) : (c.wrLs a v).numst = c.numst := rfl
@[simp] theorem Column.wrLs_ftzcnt (c : Column) (a : Nat) (v : Byte) : (c.wrLs a v).ftzcnt = c.ftzcnt := rfl
@[simp] theorem Column.wrLs_promo (c : Column) (a : Nat) (v : Byte) : (c.wrLs a v).promo = c.promo := rfl
@[simp] theorem Column.wrLs_earlyp (c : Column) (a : Nat) (v : Byte) : (c.wrLs a v).earlyp = c.earlyp := rfl
@[simp] theorem Column.wrLs_badlist (c : Column) (a : Nat) (v : Byte) : (c.wrLs a v).badlist = c.badlist := rfl
@[simp] theorem Column.wrLs_wscale (c : Column) (a : Nat) (v : Byte) : (c.wrLs a v).wscale = c.wscale := rfl
@[simp] theorem Column.wrLs_htab (c : Column) (a : Nat) (v : Byte) : (c.wrLs a v).htab = c.htab := rfl
@[simp] theorem Column.wrLs_tiles (c : Column) (a : Nat) (v : Byte) : (c.wrLs a v).tiles = c.tiles := rfl
@[simp] theorem Column.wrLs_mq (c : Column) (a : Nat) (v : Byte) : (c.wrLs a v).mq = c.mq := rfl
@[simp] theorem Column.wrLs_mrun (c : Column) (a : Nat) (v : Byte) : (c.wrLs a v).mrun = c.mrun := rfl
@[simp] theorem Column.wrLs_mfree (c : Column) (a : Nat) (v : Byte) : (c.wrLs a v).mfree = c.mfree := rfl
@[simp] theorem Column.wrLs_copyq (c : Column) (a : Nat) (v : Byte) : (c.wrLs a v).copyq = c.copyq := rfl
@[simp] theorem Column.wrLs_crun (c : Column) (a : Nat) (v : Byte) : (c.wrLs a v).crun = c.crun := rfl
@[simp] theorem Column.wrLs_csusp (c : Column) (a : Nat) (v : Byte) : (c.wrLs a v).csusp = c.csusp := rfl
@[simp] theorem Column.wrLs_templates (c : Column) (a : Nat) (v : Byte) : (c.wrLs a v).templates = c.templates := rfl
@[simp] theorem Column.wrLs_kvq (c : Column) (a : Nat) (v : Byte) : (c.wrLs a v).kvq = c.kvq := rfl
@[simp] theorem Column.wrLs_ssq (c : Column) (a : Nat) (v : Byte) : (c.wrLs a v).ssq = c.ssq := rfl
@[simp] theorem Column.wrLs_ktb (c : Column) (a : Nat) (v : Byte) : (c.wrLs a v).ktb = c.ktb := rfl
@[simp] theorem Column.wrLs_ktbrr (c : Column) (a : Nat) (v : Byte) : (c.wrLs a v).ktbrr = c.ktbrr := rfl
@[simp] theorem Column.wrLs_chans (c : Column) (a : Nat) (v : Byte) : (c.wrLs a v).chans = c.chans := rfl
@[simp] theorem Column.wrLs_outs (c : Column) (a : Nat) (v : Byte) : (c.wrLs a v).outs = c.outs := rfl
@[simp] theorem Column.wrLs_inj (c : Column) (a : Nat) (v : Byte) : (c.wrLs a v).inj = c.inj := rfl
@[simp] theorem Column.wrLs_handlers (c : Column) (a : Nat) (v : Byte) : (c.wrLs a v).handlers = c.handlers := rfl
@[simp] theorem Column.wrLs_rr (c : Column) (a : Nat) (v : Byte) : (c.wrLs a v).rr = c.rr := rfl
@[simp] theorem Column.wrLs_starve (c : Column) (a : Nat) (v : Byte) : (c.wrLs a v).starve = c.starve := rfl
@[simp] theorem Column.wrLs_boost (c : Column) (a : Nat) (v : Byte) : (c.wrLs a v).boost = c.boost := rfl
@[simp] theorem Column.wrLs_refire (c : Column) (a : Nat) (v : Byte) : (c.wrLs a v).refire = c.refire := rfl
@[simp] theorem Column.wrLs_stepping (c : Column) (a : Nat) (v : Byte) : (c.wrLs a v).stepping = c.stepping := rfl
@[simp] theorem Column.wrLs_emptyRep (c : Column) (a : Nat) (v : Byte) : (c.wrLs a v).emptyRep = c.emptyRep := rfl
@[simp] theorem Column.wrLs_joins (c : Column) (a : Nat) (v : Byte) : (c.wrLs a v).joins = c.joins := rfl
@[simp] theorem Column.wrLs_region (c : Column) (a : Nat) (v : Byte) : (c.wrLs a v).region = c.region := rfl
@[simp] theorem Column.wrLs_ctx (c : Column) (a : Nat) (v : Byte) : (c.wrLs a v).ctx = c.ctx := rfl
@[simp] theorem Column.wrLs_rseq (c : Column) (a : Nat) (v : Byte) : (c.wrLs a v).rseq = c.rseq := rfl
@[simp] theorem Column.wrLs_startAt (c : Column) (a : Nat) (v : Byte) : (c.wrLs a v).startAt = c.startAt := rfl
@[simp] theorem Column.wrLs_busy (c : Column) (a : Nat) (v : Byte) : (c.wrLs a v).busy = c.busy := rfl
@[simp] theorem Column.wrLs_tlb (c : Column) (a : Nat) (v : Byte) : (c.wrLs a v).tlb = c.tlb := rfl
@[simp] theorem Column.wrLs_waves (c : Column) (a : Nat) (v : Byte) : (c.wrLs a v).waves = c.waves := rfl
@[simp] theorem Column.wrLs_nextTag (c : Column) (a : Nat) (v : Byte) : (c.wrLs a v).nextTag = c.nextTag := rfl
@[simp] theorem Column.wrLs_retained (c : Column) (a : Nat) (v : Byte) : (c.wrLs a v).retained = c.retained := rfl
@[simp] theorem Column.wrLs_cyFlags (c : Column) (a : Nat) (v : Byte) : (c.wrLs a v).cyFlags = c.cyFlags := rfl
@[simp] theorem Column.wrLs_cyFtz (c : Column) (a : Nat) (v : Byte) : (c.wrLs a v).cyFtz = c.cyFtz := rfl
@[simp] theorem Column.wrLs_cyEarly (c : Column) (a : Nat) (v : Byte) : (c.wrLs a v).cyEarly = c.cyEarly := rfl
@[simp] theorem Column.wrLs_starveAt (c : Column) (a : Nat) (v : Byte) : (c.wrLs a v).starveAt = c.starveAt := rfl
@[simp] theorem Column.wrLs_areas (c : Column) (a : Nat) (v : Byte) : (c.wrLs a v).areas = c.areas := rfl
@[simp] theorem Column.wrLs_short (c : Column) (a : Nat) (v : Byte) : (c.wrLs a v).short = c.short := rfl
@[simp] theorem Column.wrLs_prevOuts (c : Column) (a : Nat) (v : Byte) : (c.wrLs a v).prevOuts = c.prevOuts := rfl
@[simp] theorem Column.wrLs_mdone (c : Column) (a : Nat) (v : Byte) : (c.wrLs a v).mdone = c.mdone := rfl
@[simp] theorem Column.wrLs_engOrders (c : Column) (a : Nat) (v : Byte) : (c.wrLs a v).engOrders = c.engOrders := rfl
@[simp] theorem State.modProctor_proctor (s : State) (f : Proctor → Proctor) : (s.modProctor f).proctor = f s.proctor := rfl
@[simp] theorem Column.wrLs_ls (c : Column) (a : Nat) (v : Byte) : (c.wrLs a v).ls = sput 0 c.ls a v := rfl

@[simp] theorem Column.setBank_bankIx (c : Column) (b : Nat) (k : Bank) : (c.setBank b k).bankIx = c.bankIx := rfl
@[simp] theorem Column.modBank_bankIx (c : Column) (b : Nat) (f : Bank → Bank) : (c.modBank b f).bankIx = c.bankIx := rfl

/-! ## Registers of a bank (R203) -/

@[simp] theorem Bank.readX_zero (k : Bank) : k.readX 0 = 0 := rfl
@[simp] theorem Bank.readQ_zero (k : Bank) : k.readQ 0 = BitVec.allOnes 64 := rfl
@[simp] theorem Bank.writeX_zero (k : Bank) (w : Word) : k.writeX 0 w = k := rfl
@[simp] theorem Bank.writeQ_zero (k : Bank) (w : Word) : k.writeQ 0 w = k := rfl

theorem Bank.readX_writeX (k : Bank) (n m : Nat) (w : Word) :
    (k.writeX n w).readX m = if m = n ∧ n ≠ 0 then w else k.readX m := by
  by_cases h0 : n = 0
  · subst h0; simp
  · by_cases hm : m = n
    · subst hm; simp [Bank.writeX, Bank.readX, h0]
    · by_cases hz : m = 0
      · simp [hz, Ne.symm h0]
      · simp [Bank.writeX, Bank.readX, h0, hz, hm, sget_sput_ne _ _ _ hm]

theorem Bank.readV_writeV (k : Bank) (n m : Nat) (w : VWord) :
    (k.writeV n w).readV m = if m = n then w else k.readV m := by
  simp [Bank.writeV, Bank.readV, sget_sput]

theorem Bank.readQ_writeQ (k : Bank) (n m : Nat) (w : Word) :
    (k.writeQ n w).readQ m = if m = n ∧ n ≠ 0 then w else k.readQ m := by
  by_cases h0 : n = 0
  · subst h0; simp
  · by_cases hm : m = n
    · subst hm; simp [Bank.writeQ, Bank.readQ, h0]
    · by_cases hz : m = 0
      · simp [hz, Ne.symm h0]
      · simp [Bank.writeQ, Bank.readQ, h0, hz, hm, sget_sput_ne _ _ _ hm]

end Sys2Proof.Machine
end

