-- ==== Sys2Proof/Laws/Ops.lean ====
section
/-!
SUPPORT. What the shared operations do, said once: a word whose registers are free issues, one whose registers are not
does not; operand forms; units; events.
-/
namespace Sys2Proof.Machine

/-! ## The scoreboard -/

theorem State.need_of_ready (s : State) (rs : List Reg) (k : Out) (h : s.ready rs = true) : s.need rs k = k := by
  simp [State.need, h]

theorem State.need_stalled (s : State) (rs : List Reg) (k : Out) (h : s.ready rs = false) (hp : s.parkedOf rs = []) :
    s.need rs k = s.stalled := by
  simp [State.need, h, hp]

theorem State.onUnit_free (s : State) (u n : Nat) (k : State → Out) (h : s.unitFree u = true) :
    s.onUnit u n k = k (s.occupy u n) := by
  simp [State.onUnit, h]

theorem State.onUnit_busy (s : State) (u n : Nat) (k : State → Out) (h : s.unitFree u = false) :
    s.onUnit u n k = s.stalled := by
  simp [State.onUnit, h]

/-! ## An occupied unit changes nothing that operands or the scoreboard read -/

@[simp] theorem State.me_occupy (s : State) (u n : Nat) :
    (s.occupy u n).me = { s.me with busy := sput 0 s.me.busy u (s.me.cycle + n) } := by
  simp [State.occupy]

@[simp] theorem State.bk_occupy (s : State) (u n : Nat) : (s.occupy u n).bk = s.bk := by
  simp [State.bk, Column.bank, Column.bankIx, Column.band]

@[simp] theorem State.X_occupy (s : State) (u n : Nat) (r : BitVec 5) : (s.occupy u n).X r = s.X r := by simp [State.X]
@[simp] theorem State.V_occupy (s : State) (u n : Nat) (r : BitVec 5) : (s.occupy u n).V r = s.V r := by simp [State.V]
@[simp] theorem State.Q_occupy (s : State) (u n : Nat) (r : BitVec 3) : (s.occupy u n).Q r = s.Q r := by simp [State.Q]
@[simp] theorem State.ready_occupy (s : State) (u n : Nat) (rs : List Reg) : (s.occupy u n).ready rs = s.ready rs := by
  simp [State.ready]

/-! ## Outcomes -/

theorem State.issued_eq (s : State) : s.issued = .next s.done := rfl

theorem event_some (f : State → Option State) (s t : State) (h : f s = some t) : event f s = .next t.done := by
  simp [event, h, State.done]

theorem event_none (f : State → Option State) (s : State) (h : f s = none) :
    event f s = .next { s with last := .waited } := by
  simp [event, h, State.idle]

theorem barEvent_some (f : State → Option State) (s t : State) (hp : s.proctor.power ≠ .off)
    (hr : s.proctor.power ≠ .recovery) (h : f s = some t) : barEvent f s = .next t.done := by
  simp [barEvent, hp, hr, h, State.done]

/-! ## What the stack interfaces do leaves the schedule and the power state alone -/

theorem State.count_keeps (s : State) (n : Nat) : (s.count n).agenda = s.agenda ∧ (s.count n).proctor.power = s.proctor.power :=
  ⟨rfl, rfl⟩

theorem State.journal_keeps (s : State) (type cause col : Nat) (exh : Bool) (v : Word) :
    (s.journal type cause col exh v).agenda = s.agenda ∧
    (s.journal type cause col exh v).proctor.power = s.proctor.power := by
  unfold State.journal; dsimp only; split <;> exact ⟨rfl, rfl⟩

theorem State.spare_keeps (s : State) (k : Nat) : (s.spare k).agenda = s.agenda ∧
    (s.spare k).proctor.power = s.proctor.power := by
  unfold State.spare; dsimp only; split
  · exact State.journal_keeps _ _ _ _ _ _
  · exact State.journal_keeps _ _ _ _ _ _

theorem State.retrain_keeps (s : State) (d due : Nat) (late forced : Bool) :
    (s.retrain d due late forced).agenda = s.agenda ∧ (s.retrain d due late forced).proctor.power = s.proctor.power := by
  unfold State.retrain; dsimp only
  split
  · rw [(State.spare_keeps _ _).1, (State.spare_keeps _ _).2]
    cases late <;> cases forced <;> simp [State.journal_keeps, State.modProctor_proctor]
  · cases late <;> cases forced <;> simp [State.journal_keeps, State.modProctor_proctor]

theorem State.ports_quiet (s : State) (hd : s.proctor.rtDue = []) (hp : s.proctor.rtPause = []) : s.ports = s := by
  simp [State.ports, hd, hp]

/-- The stack interfaces leave the schedule and the power state alone. -/
theorem State.ports_keeps (s : State) : s.ports.agenda = s.agenda ∧ s.ports.proctor.power = s.proctor.power := by
  have he (d : Nat) (s : State) : ((evRetrainingEnd d s).getD s).agenda = s.agenda ∧
      ((evRetrainingEnd d s).getD s).proctor.power = s.proctor.power := by
    unfold evRetrainingEnd; split <;> exact ⟨rfl, rfl⟩
  have hm (d : Nat) (s : State) : (s.markDeferral d).agenda = s.agenda ∧
      (s.markDeferral d).proctor.power = s.proctor.power := by
    unfold State.markDeferral; split <;> exact ⟨rfl, rfl⟩
  have hs (d : Nat) (s : State) : (((evRetrainingStart d s) <|> (evRetrainingForced d s)).getD s).agenda = s.agenda ∧
      (((evRetrainingStart d s) <|> (evRetrainingForced d s)).getD s).proctor.power = s.proctor.power := by
    unfold evRetrainingStart evRetrainingForced
    cases s.proctor.dueAt d with
    | none => exact ⟨rfl, rfl⟩
    | some t =>
      by_cases hr : s.proctor.power = .run <;> by_cases h : s.deferring d <;> by_cases h2 : t + 640000 ≤ s.pktCycle <;>
        simp [hr, h, h2, State.retrain_keeps]
  unfold State.ports; split
  · exact ⟨rfl, rfl⟩
  · simp only [List.foldl_cons, List.foldl_nil, he, hm, hs]; trivial

/-! ## Operand forms -/

theorem opXXX_ready (lat : Nat) (f : Word → Word → Word) (d a b : BitVec 5) (s : State)
    (h : s.ready [.x a.toNat, .x b.toNat, .x d.toNat] = true) :
    opXXX lat f d a b s = .next (s.deliversX d (f (s.X a) (s.X b)) lat) := by
  simp [opXXX, State.need_of_ready, h, State.issued_eq, State.deliversX, State.delivers]

theorem opXX_ready (lat : Nat) (f : Word → Word) (d a : BitVec 5) (s : State)
    (h : s.ready [.x a.toNat, .x d.toNat] = true) :
    opXX lat f d a s = .next (s.deliversX d (f (s.X a)) lat) := by
  simp [opXX, State.need_of_ready, h, State.issued_eq, State.deliversX, State.delivers]

theorem opX_ready (lat : Nat) (w : Word) (d : BitVec 5) (s : State) (h : s.ready [.x d.toNat] = true) :
    opX lat w d s = .next (s.deliversX d w lat) := by
  simp [opX, State.need_of_ready, h, State.issued_eq, State.deliversX, State.delivers]

theorem divForm_ready (f : Word → Word → Word) (d a b : BitVec 5) (s : State)
    (h : s.ready [.x a.toNat, .x b.toNat, .x d.toNat] = true) (hu : s.unitFree unitDiv = true) :
    divForm f d a b s = .next ((s.occupy unitDiv 20).deliversX d (f (s.X a) (s.X b)) 20) := by
  simp [divForm, State.need_of_ready, h, State.onUnit_free, hu, opXXX_ready]

end Sys2Proof.Machine
end

