-- ==== Sys2Proof/Laws/Frame.lean ====
section
/-!
SUPPORT. The register frame: it holds of a word that issues without effect, of one more result, of an occupied unit, and of
one frame after another.
-/
namespace Sys2Proof.Machine

theorem State.rd_done (s : State) (l : Loc) : s.done.rd l = s.rd l := by cases l <;> rfl

/-- Reading a byte depends on memory alone. -/
theorem State.rd_congr {s t : State} (hl : ∀ p, (t.col p).ls = (s.col p).ls) (hg : t.gddr = s.gddr)
    (hh : t.hostMem = s.hostMem) (l : Loc) : t.rd l = s.rd l := by
  cases l <;> simp [State.rd, hl, hg, hh]

/-- An update of the issuing column that leaves its local store alone changes no byte of memory. -/
theorem State.rd_modMe (s : State) (f : Column → Column) (h : (f s.me).ls = s.me.ls) (l : Loc) :
    (s.modMe f).rd l = s.rd l := by
  apply State.rd_congr
  · intro p
    by_cases hp : p = s.cur
    · subst hp; simpa [State.modMe, State.me] using h
    · simp [State.col_modMe_ne s f hp]
  · rfl
  · rfl

theorem State.frame_refl (s : State) (rs : List Reg) : s.RegisterFrame rs s where
  rest := rfl
  others := fun _ _ => rfl
  column := rfl
  banks := fun _ _ => rfl
  bank := rfl
  results := ⟨[], by simp, by simp⟩
  memory := fun _ => rfl

theorem State.frame_done {s t : State} {rs : List Reg} (h : s.RegisterFrame rs t) : s.RegisterFrame rs t.done where
  rest := by have := h.rest; unfold State.done; rw [this]
  others := h.others
  column := h.column
  banks := h.banks
  bank := h.bank
  results := h.results
  memory := fun l => by rw [State.rd_done, h.memory]

theorem State.frame_cur {s t : State} {rs : List Reg} (h : s.RegisterFrame rs t) : t.cur = s.cur := by
  rw [h.rest]

theorem State.frame_bankIx {s t : State} {rs : List Reg} (h : s.RegisterFrame rs t) : t.me.bankIx = s.me.bankIx := by
  rw [h.column]; rfl

theorem State.frame_trans {s t u : State} {rs : List Reg} (h : s.RegisterFrame rs t) (k : t.RegisterFrame rs u) :
    s.RegisterFrame rs u where
  rest := by rw [k.rest, h.rest]
  others := fun p hp => by rw [k.others p (by rw [State.frame_cur h]; exact hp), h.others p hp]
  column := by rw [k.column, h.column]
  banks := fun b hb => by rw [k.banks b (by rw [State.frame_bankIx h]; exact hb), h.banks b hb]
  bank := by rw [k.bank, h.bank]
  results := by
    obtain ⟨e1, h1, m1⟩ := h.results
    obtain ⟨e2, h2, m2⟩ := k.results
    refine ⟨e1 ++ e2, by rw [h2, h1, List.append_assoc], ?_⟩
    intro e he
    rcases List.mem_append.1 he with h | h
    · exact m1 e h
    · exact m2 e h
  memory := fun l => by rw [k.memory, h.memory]

theorem State.frame_occupy (s : State) (u n : Nat) (rs : List Reg) : s.RegisterFrame rs (s.occupy u n) where
  rest := rfl
  others := fun p hp => State.col_modMe_ne s _ hp
  column := by simp
  banks := fun b _ => by simp [Column.bank]
  bank := by simp
  results := ⟨[], by simp, by simp⟩
  memory := fun l => State.rd_modMe s _ rfl l

theorem State.frame_result (s : State) (r : Reg) (w : VWord) (lat fl ftz : Nat) {rs : List Reg} (h : r ∈ rs) :
    s.RegisterFrame rs (s.result r w lat fl ftz) where
  rest := rfl
  others := fun p hp => State.col_modMe_ne s _ hp
  column := by simp only [State.result, State.modBk, State.me_modMe]; rfl
  banks := fun b hb => by
    simp only [State.result, State.modBk, State.me_modMe]
    exact Column.bank_modBank_ne _ _ hb
  bank := by simp [State.result]
  results := by
    exact ⟨[{ reg := r, val := .known w, due := s.me.cycle + lat, flags := fl, ftz := ftz, band := s.me.band, fresh := true }],
      by simp only [State.result, State.bk_modBk], by simpa using h⟩
  memory := fun l => State.rd_modMe s _ rfl l

theorem State.frame_deliver (s : State) (r : Reg) (w : VWord) (lat fl ftz : Nat) {rs : List Reg} (h : r ∈ rs) :
    s.RegisterFrame rs ((s.result r w lat fl ftz).done) := State.frame_done (s.frame_result r w lat fl ftz h)

/-- A word that waits for registers and then keeps the frame keeps it. -/
theorem State.frame_need {s t : State} {rs qs : List Reg} {k : Out} (h : s.need qs k = .next t) (hl : t.last = .issued)
    (hk : k = .next t → s.RegisterFrame rs t) : s.RegisterFrame rs t := by
  unfold State.need at h
  split at h
  · exact hk h
  · split at h
    · simp [State.stalled] at h; subst h; simp at hl
    · simp only [State.park] at h
      split at h
      · simp [State.stalled] at h; subst h; simp at hl
      · simp at h; subst h; simp at hl

end Sys2Proof.Machine
end

