-- ==== Sys2Proof/Laws/Memory.lean ====
section
/-!
SUPPORT. Memory: a read after a write, what a write leaves alone, that every memory operation keeps the canonical form
(R8, R108, R112), and little-endian numbers.
-/
namespace Sys2Proof.Machine

/-! ## One byte -/

/-- A read after a write to the same location gives the value written; any other location reads as before. -/
theorem State.rd_wr (s : State) (l m : Loc) (v : Byte) : (s.wr l v).rd m = if m = l then v else s.rd m := by
  cases l with
  | ls c o =>
    cases m with
    | ls c' o' =>
      by_cases hc : c' = c
      · subst hc
        by_cases ho : o' = o
        · subst ho; simp [State.wr, State.rd]
        · simp [State.wr, State.rd, ho, sget_sput_ne _ _ _ ho]
      · simp [State.wr, State.rd, hc, State.col_modCol_ne]
    | gd a => simp [State.wr, State.rd]
    | host a => simp [State.wr, State.rd]
  | gd a =>
    cases m with
    | gd a' =>
      by_cases ha : a' = a
      · subst ha; simp [State.wr, State.rd]
      · simp [State.wr, State.rd, ha, sget_sput_ne _ _ _ ha]
    | ls c o => simp [State.wr, State.rd, State.col]
    | host a' => simp [State.wr, State.rd]
  | host a =>
    cases m with
    | host a' =>
      by_cases ha : a' = a
      · subst ha; simp [State.wr, State.rd]
      · simp [State.wr, State.rd, ha, sget_sput_ne _ _ _ ha]
    | ls c o => simp [State.wr, State.rd, State.col]
    | gd a' => simp [State.wr, State.rd]

@[simp] theorem State.rd_wr_self (s : State) (l : Loc) (v : Byte) : (s.wr l v).rd l = v := by simp [State.rd_wr]
theorem State.rd_wr_ne (s : State) (v : Byte) {l m : Loc} (h : m ≠ l) : (s.wr l v).rd m = s.rd m := by
  simp [State.rd_wr, h]

/-! ## Runs of bytes -/

/-- A run of writes to a column changes its local store and the stored errors of it, nothing else. -/
theorem Column.wrBytes_eq (c : Column) (o : Nat) (bs : List Byte) :
    c.wrBytes o bs = { c with ls := (c.wrBytes o bs).ls, lsFlip := (c.wrBytes o bs).lsFlip } := by
  induction bs generalizing c o with
  | nil => rfl
  | cons b t ih => rw [Column.wrBytes, ih]; rfl

theorem Column.wrBytes_wf (c : Column) (o : Nat) (bs : List Byte) (h : Memory.wf c.ls = true) :
    Memory.wf (c.wrBytes o bs).ls = true := by
  induction bs generalizing c o with
  | nil => exact h
  | cons b t ih => exact ih _ _ (canonical_sput 0 _ o b h)

theorem Loc.add_zero (l : Loc) : l.add 0 = l := by cases l <;> rfl
theorem Loc.add_add (l : Loc) (m n : Nat) : (l.add m).add n = l.add (m + n) := by
  cases l <;> simp [Loc.add, Nat.add_assoc]
theorem Loc.add_inj (l : Loc) {m n : Nat} (h : l.add m = l.add n) : m = n := by
  cases l <;> simp [Loc.add] at h <;> exact h

/-- A run of writes leaves every location outside it alone. -/
theorem State.rd_wrBytes_outside (s : State) (l m : Loc) (bs : List Byte) (h : ∀ k, k < bs.length → m ≠ l.add k) :
    (s.wrBytes l bs).rd m = s.rd m := by
  induction bs generalizing s l with
  | nil => rfl
  | cons b t ih =>
    have h0 : m ≠ l := by have := h 0 (by simp); rwa [Loc.add_zero] at this
    rw [State.wrBytes, ih, State.rd_wr_ne _ _ h0]
    intro k hk
    rw [Loc.add_add, Nat.add_comm]
    exact h (k + 1) (by simp; omega)

/-- Byte k of a run reads as it was written. -/
theorem State.rd_wrBytes (s : State) (l : Loc) (bs : List Byte) (k : Nat) (h : k < bs.length) :
    (s.wrBytes l bs).rd (l.add k) = bs[k] := by
  induction bs generalizing s l k with
  | nil => simp at h
  | cons b t ih =>
    cases k with
    | zero =>
      rw [State.wrBytes, State.rd_wrBytes_outside, Loc.add_zero, State.rd_wr_self]
      · rfl
      · intro j _ he
        rw [Loc.add_add] at he
        have := Loc.add_inj l he
        omega
    | succ k =>
      have : l.add (k + 1) = (l.add 1).add k := by rw [Loc.add_add, Nat.add_comm]
      rw [State.wrBytes, this, ih _ _ k (by simpa using h)]
      rfl

theorem State.rdBytes_eq (s : State) (l : Loc) (n : Nat) : s.rdBytes l n = (List.range n).map (fun k => s.rd (l.add k)) := by
  induction n generalizing l with
  | zero => rfl
  | succ n ih =>
    rw [State.rdBytes, ih, List.range_succ_eq_map, List.map_cons, Loc.add_zero, List.map_map]
    congr 1
    apply List.map_congr_left
    intro k _
    simp [Loc.add_add, Nat.add_comm]

/-- The bytes written are the bytes read. -/
theorem State.rdBytes_wrBytes (s : State) (l : Loc) (bs : List Byte) : (s.wrBytes l bs).rdBytes l bs.length = bs := by
  rw [State.rdBytes_eq]
  apply List.ext_getElem (by simp)
  intro k h1 h2
  simp [State.rd_wrBytes s l bs k h2]

/-! ## Little-endian numbers (R8) -/

@[simp] theorem length_leBytes (n v : Nat) : (leBytes n v).length = n := by
  induction n generalizing v with
  | zero => rfl
  | succ n ih => simp [leBytes, ih]

theorem leNat_leBytes (n v : Nat) : leNat (leBytes n v) = v % 2 ^ (8 * n) := by
  induction n generalizing v with
  | zero => simp [leBytes, leNat, Nat.mod_one]
  | succ n ih =>
    have h : (2 : Nat) ^ (8 * (n + 1)) = 256 * 2 ^ (8 * n) := by
      rw [Nat.mul_add, Nat.pow_add, Nat.mul_comm]
    simp only [leBytes, leNat, ih, BitVec.toNat_ofNat, h, Nat.mod_mul]

/-- A number that was written reads back, modulo its width. -/
theorem State.rdNat_wrNat (s : State) (l : Loc) (n v : Nat) : (s.wrNat l n v).rdNat l n = v % 2 ^ (8 * n) := by
  have h := State.rdBytes_wrBytes s l (leBytes n v)
  rw [length_leBytes] at h
  rw [State.rdNat, State.wrNat, h, leNat_leBytes]

/-! ## The canonical form is kept -/

theorem all_sput {α : Type} [DecidableEq α] (d : α) (m : List (Nat × α)) (k : Nat) (v : α) (f : α → Bool)
    (h : m.all (fun x => f x.2) = true) (hv : f v = true) : (sput d m k v).all (fun x => f x.2) = true := by
  simp only [List.all_eq_true] at h ⊢
  intro x hx
  unfold sput at hx
  split at hx
  · exact h x (mem_sdel m k hx)
  · rcases mem_sins m k v hx with rfl | hx
    · exact hv
    · exact h x hx

theorem State.memWf_gddr {s : State} (h : s.memWf = true) : Memory.wf s.gddr = true := by
  simp only [State.memWf, Bool.and_eq_true] at h; exact h.1.1
theorem State.memWf_hostMem {s : State} (h : s.memWf = true) : Memory.wf s.hostMem = true := by
  simp only [State.memWf, Bool.and_eq_true] at h; exact h.1.2
theorem State.memWf_cols {s : State} (h : s.memWf = true) :
    s.cols.all (fun c => Memory.wf c.2.ls && Memory.wf c.2.stack) = true := by
  simp only [State.memWf, Bool.and_eq_true] at h; exact h.2

theorem sget_all {α : Type} (d : α) (m : List (Nat × α)) (k : Nat) (f : α → Bool) (hd : f d = true)
    (h : m.all (fun x => f x.2) = true) : f (sget d m k) = true := by
  induction m with
  | nil => exact hd
  | cons a t ih =>
    obtain ⟨j, v⟩ := a
    simp only [List.all_cons, Bool.and_eq_true] at h
    simp only [sget]
    split
    · exact h.1
    · exact ih h.2

/-- Every column's memories are in canonical form. -/
theorem State.memWf_col {s : State} (h : s.memWf = true) (p : Nat) :
    Memory.wf (s.col p).ls = true ∧ Memory.wf (s.col p).stack = true := by
  have := sget_all Column.reset s.cols p (fun c => Memory.wf c.ls && Memory.wf c.stack) rfl (State.memWf_cols h)
  simpa [Bool.and_eq_true, State.col] using this

/-- Replacing a column keeps the form if the column's own memories have it. -/
theorem State.memWf_setCol {s : State} (h : s.memWf = true) (p : Nat) (c : Column) (hl : Memory.wf c.ls = true)
    (hs : Memory.wf c.stack = true) : (s.setCol p c).memWf = true := by
  simp only [State.memWf, Bool.and_eq_true]
  refine ⟨⟨?_, ?_⟩, ?_⟩
  · exact State.memWf_gddr (s := s) h
  · exact State.memWf_hostMem (s := s) h
  exact all_sput Column.reset s.cols p c (fun c => Memory.wf c.ls && Memory.wf c.stack) (State.memWf_cols h)
    (by simp [hl, hs])

/-- An update of a column that leaves its memories alone keeps the form. -/
theorem State.memWf_modCol {s : State} (h : s.memWf = true) (p : Nat) (f : Column → Column)
    (hl : (f (s.col p)).ls = (s.col p).ls) (hs : (f (s.col p)).stack = (s.col p).stack) : (s.modCol p f).memWf = true := by
  have := State.memWf_col h p
  exact State.memWf_setCol h p _ (by rw [hl]; exact this.1) (by rw [hs]; exact this.2)

/-- A change of anything but the memories keeps the form. -/
theorem State.memWf_congr {s t : State} (h : s.memWf = true) (hg : t.gddr = s.gddr) (hh : t.hostMem = s.hostMem)
    (hc : t.cols = s.cols) : t.memWf = true := by
  simpa [State.memWf, hg, hh, hc] using h

theorem State.memWf_wr {s : State} (h : s.memWf = true) (l : Loc) (v : Byte) : (s.wr l v).memWf = true := by
  cases l with
  | ls c o =>
    have := State.memWf_col h c
    exact State.memWf_setCol h c _ (canonical_sput 0 _ o v this.1) this.2
  | gd a =>
    simp only [State.memWf, Bool.and_eq_true, State.wr]
    exact ⟨⟨canonical_sput 0 _ a v (State.memWf_gddr h), State.memWf_hostMem h⟩, State.memWf_cols h⟩
  | host a =>
    simp only [State.memWf, Bool.and_eq_true, State.wr]
    exact ⟨⟨State.memWf_gddr h, canonical_sput 0 _ a v (State.memWf_hostMem h)⟩, State.memWf_cols h⟩

theorem State.memWf_wrBits {s : State} (h : s.memWf = true) (w : ByteW) : (s.wrBits w).memWf = true := by
  unfold State.wrBits; split <;> exact State.memWf_wr h _ _

theorem State.memWf_wrAll {s : State} (h : s.memWf = true) (ws : List ByteW) : (s.wrAll ws).memWf = true := by
  unfold State.wrAll
  induction ws generalizing s with
  | nil => exact h
  | cons w t ih => exact ih (State.memWf_wrBits h w)

theorem State.memWf_wrBytes {s : State} (h : s.memWf = true) (l : Loc) (bs : List Byte) : (s.wrBytes l bs).memWf = true := by
  induction bs generalizing s l with
  | nil => exact h
  | cons b t ih => exact ih (State.memWf_wr h l b) (l.add 1)

theorem State.memWf_wrNat {s : State} (h : s.memWf = true) (l : Loc) (n v : Nat) : (s.wrNat l n v).memWf = true :=
  State.memWf_wrBytes h l _

/-- Writes to a stack slice keep its form. -/
theorem Column.stackWrite_wf (c : Column) (a : Nat) (bs : List Byte) (h : Memory.wf c.stack = true) :
    Memory.wf (c.stackWrite a bs).stack = true ∧ (c.stackWrite a bs).ls = c.ls := by
  induction bs generalizing c a with
  | nil => exact ⟨h, rfl⟩
  | cons b t ih => exact ih _ _ (canonical_sput 0 _ a b h)

/-- The memories at reset are in canonical form. -/
theorem State.memWf_reset : State.reset.memWf = true := rfl

end Sys2Proof.Machine
end

