-- ==== Sys2Proof/Laws/Numbers.lean ====
section
/-!
SUPPORT. Rounding a value that FP32 holds gives its own code and raises nothing (R169, R260), and FP32 codes compare as
their values do.
-/
namespace Sys2Proof.Machine

theorem bitLen_eq {m k : Nat} (lo : 2 ^ k ≤ m) (hi : m < 2 ^ (k + 1)) : bitLen m = k + 1 := by
  have hm : m ≠ 0 := by have := Nat.pow_pos (n := k) (show 0 < 2 by omega); omega
  simp only [bitLen, hm, if_false]
  congr 1
  exact (Nat.log2_eq_iff hm).2 ⟨lo, hi⟩

theorem bitLen_le {m k : Nat} (hi : m < 2 ^ k) : bitLen m ≤ k := by
  by_cases hm : m = 0
  · simp [bitLen, hm]
  · simp only [bitLen, hm, if_false]
    exact (Nat.log2_lt hm).2 hi

/-- A value whose unit is no finer than the result's is rounded to itself. -/
theorem FP32_roundFin_exact (neg : Bool) (m : Nat) (e : Int) (mode : Nat) (he : -149 ≤ e) (hm : 0 < m)
    (hb : bitLen m ≤ 24) (q : Int) (hq : q = max (e + bitLen m - 1) (-126) - 23)
    (hmax : (q + 149).toNat * 2 ^ 23 + m * 2 ^ (e - q).toNat ≤ 0x7F7FFFFF) :
    FP32.roundFin neg m e mode =
      { code := FP32.signed neg ((q + 149).toNat * 2 ^ 23 + m * 2 ^ (e - q).toNat), fl := 0, ftz := 0 } := by
  have hle : q ≤ e := by omega
  have h0 : (q - e).toNat = 0 := by omega
  have hq' : max (e + (bitLen m : Int) - 1) (1 - ((127 : Nat) : Int)) - ((23 : Nat) : Int) = q := by omega
  have hs : q - (1 - ((127 : Nat) : Int) - ((23 : Nat) : Int)) = q + 149 := by omega
  have hif : (if e ≤ q then m else m * 2 ^ (e - q).toNat) = m * 2 ^ (e - q).toNat := by
    split
    · rw [show e - q = 0 by omega]; simp
    · rfl
  have hp : 0 < m * 2 ^ (e - q).toNat := Nat.mul_pos hm (Nat.pow_pos (by omega))
  have h1 : ¬ 0x7F7FFFFF < (q + 149).toNat * 2 ^ 23 + m * 2 ^ (e - q).toNat := by omega
  have hz : ¬ ((q + 149).toNat * 2 ^ 23 + m * 2 ^ (e - q).toNat = 0) := by omega
  simp only [Fmt.roundFin, FP32, hq', hs, splitAt, h0, Bool.or_true, roundUp, Bool.false_eq_true, if_false, if_true, hif,
    h1, hz, decide_false, b2n]

/-- The codes of FP32 that are NaN. -/
def nan32 (b : Nat) : Prop := 0x7F800000 < b % 2 ^ 31

theorem FP32_decode_nan {b : Nat} (h : nan32 b) : FP32.decode b = .nan := by
  unfold nan32 at h
  have h1 : ¬ (b % 2 ^ 31 = 0x7F800000) := by omega
  have h2 : 0x7F7FFFFF < b % 2 ^ 31 := by omega
  have h3 : ¬ (some 0x7F800000 = some (b % 2 ^ 31)) := fun e => h1 (Option.some.inj e).symm
  simp only [Fmt.decode, FP32, Bool.false_eq_true, if_false, h2, if_true, h3]

/-- The value of a finite code: its sign, its fraction and its unit. -/
def fin32 (b : Nat) : Val :=
  let mag := b % 2 ^ 31
  if mag < 2 ^ 23 then .fin (bitN b 31) mag (-149)
  else .fin (bitN b 31) (2 ^ 23 + mag % 2 ^ 23) ((mag / 2 ^ 23 : Nat) - 150)

theorem FP32_decode_fin {b : Nat} (h : b % 2 ^ 31 < 0x7F800000) : FP32.decode b = fin32 b := by
  have h2 : ¬ 0x7F7FFFFF < b % 2 ^ 31 := by omega
  simp only [Fmt.decode, FP32, Bool.false_eq_true, if_false, h2, fin32]
  by_cases hz : b % 2 ^ 31 < 2 ^ 23
  · have : b % 2 ^ 31 / 2 ^ 23 = 0 := by omega
    have hm : b % 2 ^ 31 % 2 ^ 23 = b % 2 ^ 31 := by omega
    simp only [hz, this, hm, if_true]
    congr 1
  · have : ¬ b % 2 ^ 31 / 2 ^ 23 = 0 := by omega
    simp only [hz, this, if_false]
    congr 1; omega

theorem FP32_decode_inf {b : Nat} (h : b % 2 ^ 31 = 0x7F800000) : FP32.decode b = .inf (bitN b 31) := by
  simp only [Fmt.decode, FP32, Bool.false_eq_true, if_false, h, if_true]
  rfl

theorem signed32 (b mag : Nat) (hm : mag = b % 2 ^ 31) : FP32.signed (bitN b 31) mag = b % 2 ^ 32 := by
  simp only [Fmt.signed, FP32, bitN, beq_iff_eq]
  split <;> omega

/-- A code of FP32 that is no NaN rounds to itself and raises nothing. -/
theorem FP32_round_decode {b : Nat} (mode : Nat) (h : ¬ nan32 b) :
    FP32.round (FP32.decode b) mode = { code := b % 2 ^ 32, fl := 0, ftz := 0 } := by
  unfold nan32 at h
  by_cases hi : b % 2 ^ 31 = 0x7F800000
  · rw [FP32_decode_inf hi]
    simp only [Fmt.round, FP32, Bool.false_eq_true, if_false]
    rw [show (⟨8, 23, 127, 0x7F7FFFFF, some 0x7F800000, some 0x7FC00000, false⟩ : Fmt) = FP32 from rfl,
      signed32 b _ hi.symm]
  · rw [FP32_decode_fin (by omega)]
    simp only [fin32]
    by_cases hs : b % 2 ^ 31 < 2 ^ 23
    · simp only [hs, if_true]
      rcases hm : b % 2 ^ 31 with _ | m
      · simp only [Fmt.round]
        rw [← hm, signed32 b _ rfl]; simp [FP32]
      · have hb : bitLen (m + 1) ≤ 23 := bitLen_le (by omega)
        have hr := FP32_roundFin_exact (bitN b 31) (m + 1) (-149) mode (by omega) (by omega) (by omega) (-149)
          (by omega) (by simp; omega)
        simp only [Fmt.round, show FP32.tapered = false from rfl, Bool.false_eq_true, if_false, hr]
        simp only [show ((-149 : Int) + 149).toNat = 0 from rfl, show ((-149 : Int) - -149).toNat = 0 from rfl,
          Nat.zero_mul, Nat.pow_zero, Nat.mul_one, Nat.zero_add]
        rw [signed32 b _ hm.symm]
    · simp only [hs, if_false]
      have hm : 2 ^ 23 + b % 2 ^ 31 % 2 ^ 23 = (2 ^ 23 - 1 + b % 2 ^ 31 % 2 ^ 23) + 1 := by omega
      have hb : bitLen (2 ^ 23 + b % 2 ^ 31 % 2 ^ 23) = 24 := bitLen_eq (k := 23) (by omega) (by omega)
      have hr := FP32_roundFin_exact (bitN b 31) (2 ^ 23 + b % 2 ^ 31 % 2 ^ 23) ((b % 2 ^ 31 / 2 ^ 23 : Nat) - 150) mode
        (by omega) (by omega) (by omega) ((b % 2 ^ 31 / 2 ^ 23 : Nat) - 150) (by omega)
        (by simp only [Int.sub_self, Int.toNat_zero, Nat.pow_zero, Nat.mul_one]; omega)
      rw [hm] at hr ⊢
      simp only [Fmt.round, show FP32.tapered = false from rfl, Bool.false_eq_true, if_false, hr]
      simp only [Int.sub_self, Int.toNat_zero, Nat.pow_zero, Nat.mul_one]
      rw [signed32 b]
      omega

theorem FP32_round_nan (mode : Nat) : FP32.round .nan mode = { code := 0x7FC00000, fl := 0, ftz := 0 } := rfl

/-! ## Order of FP32 codes -/

/-- The magnitude of a finite code in units of 2^−149. -/
def mag32 (n : Nat) : Nat := if n < 2 ^ 23 then n else (2 ^ 23 + n % 2 ^ 23) * 2 ^ (n / 2 ^ 23 - 1)

theorem mag32_succ (n : Nat) : mag32 n < mag32 (n + 1) := by
  unfold mag32
  by_cases h1 : n + 1 < 2 ^ 23
  · simp only [h1, show n < 2 ^ 23 by omega, if_true]; omega
  · by_cases h2 : n < 2 ^ 23
    · have hn : n = 2 ^ 23 - 1 := by omega
      subst hn; decide
    · simp only [h1, h2, if_false]
      by_cases h3 : n % 2 ^ 23 + 1 < 2 ^ 23
      · have ha : (n + 1) % 2 ^ 23 = n % 2 ^ 23 + 1 := by omega
        have hb : (n + 1) / 2 ^ 23 = n / 2 ^ 23 := by omega
        rw [ha, hb]
        exact Nat.mul_lt_mul_of_pos_right (by omega) (Nat.pow_pos (by omega))
      · have ha : (n + 1) % 2 ^ 23 = 0 := by omega
        have hb : (n + 1) / 2 ^ 23 - 1 = (n / 2 ^ 23 - 1) + 1 := by omega
        rw [ha, hb]
        generalize n / 2 ^ 23 - 1 = k
        have e : (2 ^ 23 + 0) * 2 ^ (k + 1) = 2 ^ 24 * 2 ^ k := by omega
        rw [e]
        exact Nat.mul_lt_mul_of_pos_right (by omega) (Nat.pow_pos (by omega))

theorem mag32_lt {a b : Nat} (h : a < b) : mag32 a < mag32 b := by
  induction b with
  | zero => omega
  | succ n ih =>
    rcases Nat.lt_succ_iff_lt_or_eq.1 h with h | h
    · exact Nat.lt_trans (ih h) (mag32_succ n)
    · subst h; exact mag32_succ a

theorem mag32_lt_iff {a b : Nat} : mag32 a < mag32 b ↔ a < b := by
  constructor
  · intro h
    rcases Nat.lt_trichotomy a b with h1 | h1 | h1
    · exact h1
    · subst h1; omega
    · have := mag32_lt h1; omega
  · exact mag32_lt

/-- A number with the sign of a code. -/
def sgn (neg : Bool) (n : Nat) : Int := if neg then -(n : Int) else n

/-- The order of a code: its magnitude bits with its sign, both zeros alike. -/
def key32 (b : Nat) : Int := sgn (bitN b 31) (b % 2 ^ 31)

theorem compare_mono {a b c d : Int} (hl : a < b ↔ c < d) (hg : b < a ↔ d < c) : compare a b = compare c d := by
  rcases Int.lt_trichotomy a b with h | h | h
  · rw [Int.compare_eq_lt.2 h, Int.compare_eq_lt.2 (hl.1 h)]
  · subst h
    have : c = d := by
      have h1 : ¬ c < d := fun k => Int.lt_irrefl a (hl.2 k)
      have h2 : ¬ d < c := fun k => Int.lt_irrefl a (hg.2 k)
      omega
    subst this
    rw [Int.compare_eq_eq.2 rfl, Int.compare_eq_eq.2 rfl]
  · rw [Int.compare_eq_gt.2 h, Int.compare_eq_gt.2 (hg.1 h)]

theorem sgn_mag32_lt (s t : Bool) (a b : Nat) : sgn s (mag32 a) < sgn t (mag32 b) ↔ sgn s a < sgn t b := by
  have h0 : mag32 0 = 0 := rfl
  have hp : ∀ n, mag32 n = 0 ↔ n = 0 := by
    intro n
    constructor
    · intro h
      rcases Nat.eq_zero_or_pos n with hn | hn
      · exact hn
      · have := mag32_lt hn; omega
    · rintro rfl; rfl
  have h1 := @mag32_lt_iff a b
  have h2 := @mag32_lt_iff b a
  have ha := hp a
  have hb := hp b
  simp only [sgn]
  split <;> split <;> omega

/-- A finite value in units of 2^−149. -/
theorem toUnits_fin32 (s : Bool) (n : Nat) (u : Int) (hu : -149 ≤ u)
    (he : u ≤ if n < 2 ^ 23 then -149 else ((n / 2 ^ 23 : Nat) - 150 : Int)) :
    toUnits s (if n < 2 ^ 23 then n else 2 ^ 23 + n % 2 ^ 23)
      (if n < 2 ^ 23 then -149 else ((n / 2 ^ 23 : Nat) - 150 : Int)) u * 2 ^ (u + 149).toNat = sgn s (mag32 n) := by
  by_cases h : n < 2 ^ 23
  · simp only [h, if_true] at he ⊢
    have : u = -149 := by omega
    subst this
    simp only [toUnits, sgn, mag32, h, if_true, Int.sub_self, Int.toNat_zero, Nat.pow_zero, Nat.mul_one]
    rw [show ((-149 : Int) + 149).toNat = 0 from rfl, Int.pow_zero, Int.mul_one]
  · simp only [h, if_false] at he ⊢
    have e1 : ((n / 2 ^ 23 : Nat) - 150 - u : Int).toNat + (u + 149).toNat = n / 2 ^ 23 - 1 := by omega
    have e2 : mag32 n = (2 ^ 23 + n % 2 ^ 23) * 2 ^ ((n / 2 ^ 23 : Nat) - 150 - u : Int).toNat * 2 ^ (u + 149).toNat := by
      rw [Nat.mul_assoc, ← Nat.pow_add, e1]; simp only [mag32, h, if_false]
    rw [e2]
    simp only [toUnits, sgn]
    split
    · rw [Int.neg_mul]; simp [Int.natCast_mul, Int.natCast_pow]
    · simp [Int.natCast_mul, Int.natCast_pow]

theorem fin32_eq (b : Nat) : fin32 b = .fin (bitN b 31)
    (if b % 2 ^ 31 < 2 ^ 23 then b % 2 ^ 31 else 2 ^ 23 + b % 2 ^ 31 % 2 ^ 23)
    (if b % 2 ^ 31 < 2 ^ 23 then -149 else ((b % 2 ^ 31 / 2 ^ 23 : Nat) - 150 : Int)) := by
  simp only [fin32]; split <;> simp_all

/-- Two values of FP32 codes compare as the codes' magnitude bits with their signs do (R260, R262). -/
theorem FP32_cmp_decode {a b : Nat} (ha : ¬ nan32 a) (hb : ¬ nan32 b) :
    (FP32.decode a).cmp (FP32.decode b) = compare (key32 a) (key32 b) := by
  unfold nan32 at ha hb
  by_cases ia : a % 2 ^ 31 = 0x7F800000 <;> by_cases ib : b % 2 ^ 31 = 0x7F800000
  · rw [FP32_decode_inf ia, FP32_decode_inf ib]
    cases hx : bitN a 31 <;> cases hy : bitN b 31 <;> simp only [Val.cmp, key32, sgn, hx, hy, ia, ib] <;> decide
  · rw [FP32_decode_inf ia, FP32_decode_fin (by omega), fin32_eq]
    cases hx : bitN a 31 <;> simp only [Val.cmp, key32, hx, ia, sgn, Bool.false_eq_true, if_false, if_true]
    · exact (Int.compare_eq_gt.2 (by split <;> omega)).symm
    · exact (Int.compare_eq_lt.2 (by split <;> omega)).symm
  · rw [FP32_decode_inf ib, FP32_decode_fin (by omega), fin32_eq]
    cases hx : bitN b 31 <;> simp only [Val.cmp, key32, hx, ib, sgn, Bool.false_eq_true, if_false, if_true]
    · exact (Int.compare_eq_lt.2 (by split <;> omega)).symm
    · exact (Int.compare_eq_gt.2 (by split <;> omega)).symm
  · rw [FP32_decode_fin (by omega), FP32_decode_fin (by omega), fin32_eq, fin32_eq]
    simp only [Val.cmp, key32]
    generalize a % 2 ^ 31 = m, b % 2 ^ 31 = n, bitN a 31 = s, bitN b 31 = t
    generalize hu : min (if m < 2 ^ 23 then -149 else ((m / 2 ^ 23 : Nat) - 150 : Int))
      (if n < 2 ^ 23 then -149 else ((n / 2 ^ 23 : Nat) - 150 : Int)) = u
    have hu1 : -149 ≤ u := by split at hu <;> split at hu <;> omega
    have e1 := toUnits_fin32 s m u hu1 (by omega)
    have e2 := toUnits_fin32 t n u hu1 (by omega)
    have hk : (0 : Int) < 2 ^ (u + 149).toNat := Int.pow_pos (by omega)
    apply compare_mono
    · rw [← sgn_mag32_lt, ← e1, ← e2]
      exact ⟨fun h => Int.mul_lt_mul_of_pos_right h hk, fun h => Int.lt_of_mul_lt_mul_right h (Int.le_of_lt hk)⟩
    · rw [← sgn_mag32_lt, ← e1, ← e2]
      exact ⟨fun h => Int.mul_lt_mul_of_pos_right h hk, fun h => Int.lt_of_mul_lt_mul_right h (Int.le_of_lt hk)⟩

theorem FP32_decode_isNan (b : Nat) : (FP32.decode b).isNan = decide (0x7F800000 < b % 2 ^ 31) := by
  by_cases h : nan32 b
  · rw [FP32_decode_nan h]; unfold nan32 at h; rw [decide_eq_true h]; rfl
  · have h' := h
    unfold nan32 at h
    by_cases hi : b % 2 ^ 31 = 0x7F800000
    · rw [FP32_decode_inf hi, decide_eq_false h]; rfl
    · rw [FP32_decode_fin (by omega), fin32_eq, decide_eq_false h]; rfl

theorem FP32_decode_sign {b : Nat} (h : ¬ nan32 b) : (FP32.decode b).sign = bitN b 31 := by
  unfold nan32 at h
  by_cases hi : b % 2 ^ 31 = 0x7F800000
  · rw [FP32_decode_inf hi]; rfl
  · rw [FP32_decode_fin (by omega), fin32_eq]; rfl

end Sys2Proof.Machine
end

