-- ==== Sys2Proof/Laws/PerInstr.lean ====
section
/-!
SUPPORT. One lemma per constructor of `Instr`: its opcode and operand bits lie below bit 29, so the group code and the
W bit (bits [31:29] of the word, R189) are free for `Header`.
-/
namespace Sys2Proof.Laws.OperandBits

/-- The opcode and operand fields of an instruction occupy bits [28:0] of its word. -/
abbrev Statement (i : Instr) : Prop := i.operandBits < 2 ^ 29

theorem firingStart (c : Nat) : Statement (.firingStart c) :=
  show 0 < 2 ^ 29 from by decide
theorem firingResume (c : Nat) : Statement (.firingResume c) :=
  show 0 < 2 ^ 29 from by decide
theorem firingCommit (c : Nat) (b : Nat) : Statement (.firingCommit c b) :=
  show 0 < 2 ^ 29 from by decide
theorem firingAbort (c : Nat) (b : Nat) : Statement (.firingAbort c b) :=
  show 0 < 2 ^ 29 from by decide
theorem watchdogExpiry (c : Nat) (b : Nat) : Statement (.watchdogExpiry c b) :=
  show 0 < 2 ^ 29 from by decide
theorem starvationBoost (c : Nat) (h : Nat) : Statement (.starvationBoost c h) :=
  show 0 < 2 ^ 29 from by decide
theorem trapBankEntry (c : Nat) : Statement (.trapBankEntry c) :=
  show 0 < 2 ^ 29 from by decide
theorem deferredTrap (c : Nat) (b : Nat) : Statement (.deferredTrap c b) :=
  show 0 < 2 ^ 29 from by decide
theorem emptyEntryTimeout (c : Nat) (ch : Nat) : Statement (.emptyEntryTimeout c ch) :=
  show 0 < 2 ^ 29 from by decide
theorem registerWriteback (c : Nat) (b : Nat) (n : Nat) : Statement (.registerWriteback c b n) :=
  show 0 < 2 ^ 29 from by decide
theorem messageInjection (c : Nat) : Statement (.messageInjection c) :=
  show 0 < 2 ^ 29 from by decide
theorem routerForward (n : Nat) : Statement (.routerForward n) :=
  show 0 < 2 ^ 29 from by decide
theorem boundaryProbeAnswer (n : Nat) : Statement (.boundaryProbeAnswer n) :=
  show 0 < 2 ^ 29 from by decide
theorem reductionStage (n : Nat) : Statement (.reductionStage n) :=
  show 0 < 2 ^ 29 from by decide
theorem carryAdmit (n : Nat) : Statement (.carryAdmit n) :=
  show 0 < 2 ^ 29 from by decide
theorem messageDelivery (n : Nat) : Statement (.messageDelivery n) :=
  show 0 < 2 ^ 29 from by decide
theorem heldMessageTimeout (n : Nat) : Statement (.heldMessageTimeout n) :=
  show 0 < 2 ^ 29 from by decide
theorem channelOpen (n : Nat) : Statement (.channelOpen n) :=
  show 0 < 2 ^ 29 from by decide
theorem creditMessage (n : Nat) : Statement (.creditMessage n) :=
  show 0 < 2 ^ 29 from by decide
theorem memoryRequest (n : Nat) (refuse : Bool) : Statement (.memoryRequest n refuse) :=
  show 0 < 2 ^ 29 from by decide
theorem memoryResponse (n : Nat) : Statement (.memoryResponse n) :=
  show 0 < 2 ^ 29 from by decide
theorem acknowledgement (n : Nat) : Statement (.acknowledgement n) :=
  show 0 < 2 ^ 29 from by decide
theorem refusal (n : Nat) : Statement (.refusal n) :=
  show 0 < 2 ^ 29 from by decide
theorem faultNotice (n : Nat) : Statement (.faultNotice n) :=
  show 0 < 2 ^ 29 from by decide
theorem configurationMessage (n : Nat) : Statement (.configurationMessage n) :=
  show 0 < 2 ^ 29 from by decide
theorem markerPass (c : Nat) (ch : Nat) : Statement (.markerPass c ch) :=
  show 0 < 2 ^ 29 from by decide
theorem snapshotAlignedCapture (c : Nat) (j : Nat) : Statement (.snapshotAlignedCapture c j) :=
  show 0 < 2 ^ 29 from by decide
theorem alignmentLimitExpiry (c : Nat) (j : Nat) : Statement (.alignmentLimitExpiry c j) :=
  show 0 < 2 ^ 29 from by decide
theorem taskDecrement (c off amt : Nat) : Statement (.taskDecrement c off amt) :=
  show 0 < 2 ^ 29 from by decide
theorem spliceWavefront (n : Nat) : Statement (.spliceWavefront n) :=
  show 0 < 2 ^ 29 from by decide
theorem spliceSwitch (c : Nat) : Statement (.spliceSwitch c) :=
  show 0 < 2 ^ 29 from by decide
theorem mwaitRead (c : Nat) : Statement (.mwaitRead c) :=
  show 0 < 2 ^ 29 from by decide
theorem pbwaitRead (c : Nat) : Statement (.pbwaitRead c) :=
  show 0 < 2 ^ 29 from by decide
theorem matrixCommandStart (c : Nat) : Statement (.matrixCommandStart c) :=
  show 0 < 2 ^ 29 from by decide
theorem matrixStep (c : Nat) : Statement (.matrixStep c) :=
  show 0 < 2 ^ 29 from by decide
theorem matrixCommandComplete (c : Nat) : Statement (.matrixCommandComplete c) :=
  show 0 < 2 ^ 29 from by decide
theorem copyStart (c : Nat) : Statement (.copyStart c) :=
  show 0 < 2 ^ 29 from by decide
theorem copyComplete (c : Nat) : Statement (.copyComplete c) :=
  show 0 < 2 ^ 29 from by decide
theorem templateFire (c : Nat) (n : Nat) : Statement (.templateFire c n) :=
  show 0 < 2 ^ 29 from by decide
theorem templateComplete (c : Nat) (n : Nat) : Statement (.templateComplete c n) :=
  show 0 < 2 ^ 29 from by decide
theorem lseAccept (c : Nat) : Statement (.lseAccept c) :=
  show 0 < 2 ^ 29 from by decide
theorem lseFill (d : Nat) (n : Nat) : Statement (.lseFill d n) :=
  show 0 < 2 ^ 29 from by decide
theorem lseRefill (d : Nat) (n : Nat) : Statement (.lseRefill d n) :=
  show 0 < 2 ^ 29 from by decide
theorem lseRelocate (d : Nat) (n : Nat) : Statement (.lseRelocate d n) :=
  show 0 < 2 ^ 29 from by decide
theorem lseComplete (d : Nat) (n : Nat) : Statement (.lseComplete d n) :=
  show 0 < 2 ^ 29 from by decide
theorem kvappComplete (c : Nat) : Statement (.kvappComplete c) :=
  show 0 < 2 ^ 29 from by decide
theorem freeListOperation (c : Nat) : Statement (.freeListOperation c) :=
  show 0 < 2 ^ 29 from by decide
theorem stateStoreCommand (c : Nat) : Statement (.stateStoreCommand c) :=
  show 0 < 2 ^ 29 from by decide
theorem translationWalk (c : Nat) (va : Nat) (wr : Bool) : Statement (.translationWalk c va wr) :=
  show 0 < 2 ^ 29 from by decide
theorem lqDoorbell (q : Nat) (v : BitVec 64) : Statement (.lqDoorbell q v) :=
  show 0 < 2 ^ 29 from by decide
theorem lqEnable (q : Nat) (v : BitVec 64) : Statement (.lqEnable q v) :=
  show 0 < 2 ^ 29 from by decide
theorem lqDisable (q : Nat) (v : BitVec 64) : Statement (.lqDisable q v) :=
  show 0 < 2 ^ 29 from by decide
theorem launch (q : Nat) : Statement (.launch q) :=
  show 0 < 2 ^ 29 from by decide
theorem spliceLaunch (q : Nat) : Statement (.spliceLaunch q) :=
  show 0 < 2 ^ 29 from by decide
theorem noopPacket (q : Nat) : Statement (.noopPacket q) :=
  show 0 < 2 ^ 29 from by decide
theorem imageFetch (q : Nat) : Statement (.imageFetch q) :=
  show 0 < 2 ^ 29 from by decide
theorem graphEnd (n : Nat) : Statement (.graphEnd n) :=
  show 0 < 2 ^ 29 from by decide
theorem recordRingEnable (q : Nat) (v : BitVec 64) : Statement (.recordRingEnable q v) :=
  show 0 < 2 ^ 29 from by decide
theorem recordRingDisable (q : Nat) (v : BitVec 64) : Statement (.recordRingDisable q v) :=
  show 0 < 2 ^ 29 from by decide
theorem recordRingHeadWrite (q : Nat) (v : BitVec 64) : Statement (.recordRingHeadWrite q v) :=
  show 0 < 2 ^ 29 from by decide
theorem engineRegionWrite (n : Nat) (v : BitVec 64) : Statement (.engineRegionWrite n v) :=
  show 0 < 2 ^ 29 from by decide
theorem freeListHostPush (v : BitVec 64) : Statement (.freeListHostPush v) :=
  show 0 < 2 ^ 29 from by decide
theorem lseHostPost (d : Nat) (v : BitVec 64) : Statement (.lseHostPost d v) :=
  show 0 < 2 ^ 29 from by decide
theorem ccinvWrite (v : BitVec 64) : Statement (.ccinvWrite v) :=
  show 0 < 2 ^ 29 from by decide
theorem ptrootWrite (v : BitVec 64) : Statement (.ptrootWrite v) :=
  show 0 < 2 ^ 29 from by decide
theorem retry (v : BitVec 64) : Statement (.retry v) :=
  show 0 < 2 ^ 29 from by decide
theorem fail (v : BitVec 64) : Statement (.fail v) :=
  show 0 < 2 ^ 29 from by decide
theorem refire (v : BitVec 64) : Statement (.refire v) :=
  show 0 < 2 ^ 29 from by decide
theorem release (v : BitVec 64) : Statement (.release v) :=
  show 0 < 2 ^ 29 from by decide
theorem kill (v : BitVec 64) : Statement (.kill v) :=
  show 0 < 2 ^ 29 from by decide
theorem inval (v : BitVec 64) : Statement (.inval v) :=
  show 0 < 2 ^ 29 from by decide
theorem step (v : BitVec 64) : Statement (.step v) :=
  show 0 < 2 ^ 29 from by decide
theorem run (v : BitVec 64) : Statement (.run v) :=
  show 0 < 2 ^ 29 from by decide
theorem bar2Read (off : Nat) (len : Nat) : Statement (.bar2Read off len) :=
  show 0 < 2 ^ 29 from by decide
theorem bar2Write (off : Nat) (data : List (BitVec 8)) : Statement (.bar2Write off data) :=
  show 0 < 2 ^ 29 from by decide
theorem hostAtomicopRequest : Statement .hostAtomicopRequest := by decide
theorem genericRegisterWrite (off : Nat) (v : BitVec 64) : Statement (.genericRegisterWrite off v) :=
  show 0 < 2 ^ 29 from by decide
theorem resetRelease : Statement .resetRelease := by decide
theorem bootComplete : Statement .bootComplete := by decide
theorem ident (v : BitVec 64) : Statement (.ident v) :=
  show 0 < 2 ^ 29 from by decide
theorem attest (v : BitVec 64) : Statement (.attest v) :=
  show 0 < 2 ^ 29 from by decide
theorem updstage (v : BitVec 64) : Statement (.updstage v) :=
  show 0 < 2 ^ 29 from by decide
theorem updactivate (v : BitVec 64) : Statement (.updactivate v) :=
  show 0 < 2 ^ 29 from by decide
theorem svncommit (v : BitVec 64) : Statement (.svncommit v) :=
  show 0 < 2 ^ 29 from by decide
theorem doze (v : BitVec 64) : Statement (.doze v) :=
  show 0 < 2 ^ 29 from by decide
theorem wake (v : BitVec 64) : Statement (.wake v) :=
  show 0 < 2 ^ 29 from by decide
theorem wakeComplete : Statement .wakeComplete := by decide
theorem replan (v : BitVec 64) : Statement (.replan v) :=
  show 0 < 2 ^ 29 from by decide
theorem rcarm (v : BitVec 64) : Statement (.rcarm v) :=
  show 0 < 2 ^ 29 from by decide
theorem rctrig (v : BitVec 64) : Statement (.rctrig v) :=
  show 0 < 2 ^ 29 from by decide
theorem rchostWrite (v : BitVec 64) : Statement (.rchostWrite v) :=
  show 0 < 2 ^ 29 from by decide
theorem rollCallPin : Statement .rollCallPin := by decide
theorem rcread (v : BitVec 64) : Statement (.rcread v) :=
  show 0 < 2 ^ 29 from by decide
theorem inject (v : BitVec 64) : Statement (.inject v) :=
  show 0 < 2 ^ 29 from by decide
theorem jread (v : BitVec 64) : Statement (.jread v) :=
  show 0 < 2 ^ 29 from by decide
theorem jclear (v : BitVec 64) : Statement (.jclear v) :=
  show 0 < 2 ^ 29 from by decide
theorem sensorSample (n : Nat) (v : Nat) : Statement (.sensorSample n v) :=
  show 0 < 2 ^ 29 from by decide
theorem replanTimer : Statement .replanTimer := by decide
theorem voltageOffsetStep (c : Nat) : Statement (.voltageOffsetStep c) :=
  show 0 < 2 ^ 29 from by decide
theorem retrainingDue (d : Nat) : Statement (.retrainingDue d) :=
  show 0 < 2 ^ 29 from by decide
theorem retrainingStart (d : Nat) : Statement (.retrainingStart d) :=
  show 0 < 2 ^ 29 from by decide
theorem retrainingForced (d : Nat) : Statement (.retrainingForced d) :=
  show 0 < 2 ^ 29 from by decide
theorem retrainingEnd (d : Nat) : Statement (.retrainingEnd d) :=
  show 0 < 2 ^ 29 from by decide
theorem externalLinkFailure (port : Nat) (far : Nat) : Statement (.externalLinkFailure port far) :=
  show 0 < 2 ^ 29 from by decide
theorem nop : Statement .nop := by decide
theorem endFiring : Statement .endFiring := by decide
theorem trap (a : BitVec 5) (p : BitVec 1) (n : BitVec 6) : Statement (.trap a p n) := by
  show 0x800000 + a.toNat * 0x1000 + p.toNat * 0x40 + n.toNat < 2 ^ 29
  omega
theorem tretRetry : Statement .tretRetry := by decide
theorem tretNext : Statement .tretNext := by decide
theorem tretAbort : Statement .tretAbort := by decide
theorem snap (a : BitVec 5) (c : BitVec 7) : Statement (.snap a c) := by
  show 0x1000000 + a.toNat * 0x1000 + c.toNat < 2 ^ 29
  omega
theorem sysrd (d : BitVec 5) (r : BitVec 12) : Statement (.sysrd d r) := by
  show 0x1400000 + d.toNat * 0x20000 + r.toNat < 2 ^ 29
  omega
theorem syswr (d : BitVec 5) (r : BitVec 12) : Statement (.syswr d r) := by
  show 0x1800000 + d.toNat * 0x20000 + r.toNat < 2 ^ 29
  omega
theorem beq (a : BitVec 5) (b : BitVec 5) (o : BitVec 12) : Statement (.beq a b o) := by
  show 0x2000000 + a.toNat * 0x20000 + b.toNat * 0x1000 + o.toNat < 2 ^ 29
  omega
theorem bne (a : BitVec 5) (b : BitVec 5) (o : BitVec 12) : Statement (.bne a b o) := by
  show 0x2400000 + a.toNat * 0x20000 + b.toNat * 0x1000 + o.toNat < 2 ^ 29
  omega
theorem blt (a : BitVec 5) (b : BitVec 5) (o : BitVec 12) : Statement (.blt a b o) := by
  show 0x2800000 + a.toNat * 0x20000 + b.toNat * 0x1000 + o.toNat < 2 ^ 29
  omega
theorem bge (a : BitVec 5) (b : BitVec 5) (o : BitVec 12) : Statement (.bge a b o) := by
  show 0x2C00000 + a.toNat * 0x20000 + b.toNat * 0x1000 + o.toNat < 2 ^ 29
  omega
theorem bltu (a : BitVec 5) (b : BitVec 5) (o : BitVec 12) : Statement (.bltu a b o) := by
  show 0x3000000 + a.toNat * 0x20000 + b.toNat * 0x1000 + o.toNat < 2 ^ 29
  omega
theorem bgeu (a : BitVec 5) (b : BitVec 5) (o : BitVec 12) : Statement (.bgeu a b o) := by
  show 0x3400000 + a.toNat * 0x20000 + b.toNat * 0x1000 + o.toNat < 2 ^ 29
  omega
theorem jal (o : BitVec 22) : Statement (.jal o) := by
  show 0x3800000 + o.toNat < 2 ^ 29
  omega
theorem jalr (d : BitVec 5) (a : BitVec 5) (i : BitVec 12) : Statement (.jalr d a i) := by
  show 0x3C00000 + d.toNat * 0x20000 + a.toNat * 0x1000 + i.toNat < 2 ^ 29
  omega
theorem loop (a : BitVec 5) (i : BitVec 12) : Statement (.loop a i) := by
  show 0x4000000 + a.toNat * 0x1000 + i.toNat < 2 ^ 29
  omega
theorem ldch (d : BitVec 5) (a : BitVec 5) (i : BitVec 12) : Statement (.ldch d a i) := by
  show 0x4400000 + d.toNat * 0x20000 + a.toNat * 0x1000 + i.toNat < 2 ^ 29
  omega
theorem ldB (d : BitVec 5) (a : BitVec 5) (i : BitVec 12) : Statement (.ldB d a i) := by
  show 0x4800000 + d.toNat * 0x20000 + a.toNat * 0x1000 + i.toNat < 2 ^ 29
  omega
theorem ldH (d : BitVec 5) (a : BitVec 5) (i : BitVec 12) : Statement (.ldH d a i) := by
  show 0x4C00000 + d.toNat * 0x20000 + a.toNat * 0x1000 + i.toNat < 2 ^ 29
  omega
theorem ldW (d : BitVec 5) (a : BitVec 5) (i : BitVec 12) : Statement (.ldW d a i) := by
  show 0x5000000 + d.toNat * 0x20000 + a.toNat * 0x1000 + i.toNat < 2 ^ 29
  omega
theorem ldD (d : BitVec 5) (a : BitVec 5) (i : BitVec 12) : Statement (.ldD d a i) := by
  show 0x5400000 + d.toNat * 0x20000 + a.toNat * 0x1000 + i.toNat < 2 ^ 29
  omega
theorem lduB (d : BitVec 5) (a : BitVec 5) (i : BitVec 12) : Statement (.lduB d a i) := by
  show 0x5800000 + d.toNat * 0x20000 + a.toNat * 0x1000 + i.toNat < 2 ^ 29
  omega
theorem lduH (d : BitVec 5) (a : BitVec 5) (i : BitVec 12) : Statement (.lduH d a i) := by
  show 0x5C00000 + d.toNat * 0x20000 + a.toNat * 0x1000 + i.toNat < 2 ^ 29
  omega
theorem lduW (d : BitVec 5) (a : BitVec 5) (i : BitVec 12) : Statement (.lduW d a i) := by
  show 0x6000000 + d.toNat * 0x20000 + a.toNat * 0x1000 + i.toNat < 2 ^ 29
  omega
theorem ldfF32 (d : BitVec 5) (a : BitVec 5) (i : BitVec 12) : Statement (.ldfF32 d a i) := by
  show 0x6400000 + d.toNat * 0x20000 + a.toNat * 0x1000 + i.toNat < 2 ^ 29
  omega
theorem ldfBf16 (d : BitVec 5) (a : BitVec 5) (i : BitVec 12) : Statement (.ldfBf16 d a i) := by
  show 0x6800000 + d.toNat * 0x20000 + a.toNat * 0x1000 + i.toNat < 2 ^ 29
  omega
theorem stB (d : BitVec 5) (a : BitVec 5) (i : BitVec 12) : Statement (.stB d a i) := by
  show 0x6C00000 + d.toNat * 0x20000 + a.toNat * 0x1000 + i.toNat < 2 ^ 29
  omega
theorem stH (d : BitVec 5) (a : BitVec 5) (i : BitVec 12) : Statement (.stH d a i) := by
  show 0x7000000 + d.toNat * 0x20000 + a.toNat * 0x1000 + i.toNat < 2 ^ 29
  omega
theorem stW (d : BitVec 5) (a : BitVec 5) (i : BitVec 12) : Statement (.stW d a i) := by
  show 0x7400000 + d.toNat * 0x20000 + a.toNat * 0x1000 + i.toNat < 2 ^ 29
  omega
theorem stD (d : BitVec 5) (a : BitVec 5) (i : BitVec 12) : Statement (.stD d a i) := by
  show 0x7800000 + d.toNat * 0x20000 + a.toNat * 0x1000 + i.toNat < 2 ^ 29
  omega
theorem stfF32 (d : BitVec 5) (a : BitVec 5) (i : BitVec 12) : Statement (.stfF32 d a i) := by
  show 0x7C00000 + d.toNat * 0x20000 + a.toNat * 0x1000 + i.toNat < 2 ^ 29
  omega
theorem stfBf16 (d : BitVec 5) (a : BitVec 5) (i : BitVec 12) : Statement (.stfBf16 d a i) := by
  show 0x8000000 + d.toNat * 0x20000 + a.toNat * 0x1000 + i.toNat < 2 ^ 29
  omega
theorem vld (d : BitVec 5) (a : BitVec 5) (b : BitVec 5) (t : BitVec 3) (s : BitVec 4) : Statement (.vld d a b t s) := by
  show 0x8400000 + d.toNat * 0x20000 + a.toNat * 0x1000 + b.toNat * 0x80 + t.toNat * 0x10 + s.toNat < 2 ^ 29
  omega
theorem vst (d : BitVec 5) (a : BitVec 5) (b : BitVec 5) (t : BitVec 3) (s : BitVec 4) : Statement (.vst d a b t s) := by
  show 0x8800000 + d.toNat * 0x20000 + a.toNat * 0x1000 + b.toNat * 0x80 + t.toNat * 0x10 + s.toNat < 2 ^ 29
  omega
theorem vlds (d : BitVec 5) (a : BitVec 5) (b : BitVec 5) (t : BitVec 3) (s : BitVec 4) : Statement (.vlds d a b t s) := by
  show 0x8C00000 + d.toNat * 0x20000 + a.toNat * 0x1000 + b.toNat * 0x80 + t.toNat * 0x10 + s.toNat < 2 ^ 29
  omega
theorem vsts (d : BitVec 5) (a : BitVec 5) (b : BitVec 5) (t : BitVec 3) (s : BitVec 4) : Statement (.vsts d a b t s) := by
  show 0x9000000 + d.toNat * 0x20000 + a.toNat * 0x1000 + b.toNat * 0x80 + t.toNat * 0x10 + s.toNat < 2 ^ 29
  omega
theorem vgath (d : BitVec 5) (a : BitVec 5) (b : BitVec 5) (t : BitVec 3) (s : BitVec 4) : Statement (.vgath d a b t s) := by
  show 0x9400000 + d.toNat * 0x20000 + a.toNat * 0x1000 + b.toNat * 0x80 + t.toNat * 0x10 + s.toNat < 2 ^ 29
  omega
theorem vscat (d : BitVec 5) (a : BitVec 5) (b : BitVec 5) (t : BitVec 3) (s : BitVec 4) : Statement (.vscat d a b t s) := by
  show 0x9800000 + d.toNat * 0x20000 + a.toNat * 0x1000 + b.toNat * 0x80 + t.toNat * 0x10 + s.toNat < 2 ^ 29
  omega
theorem amoAdd (d : BitVec 5) (a : BitVec 5) (b : BitVec 5) (s : BitVec 4) : Statement (.amoAdd d a b s) := by
  show 0x9C00000 + d.toNat * 0x20000 + a.toNat * 0x1000 + b.toNat * 0x80 + s.toNat * 0x8 < 2 ^ 29
  omega
theorem amoAnd (d : BitVec 5) (a : BitVec 5) (b : BitVec 5) (s : BitVec 4) : Statement (.amoAnd d a b s) := by
  show 0x9C00001 + d.toNat * 0x20000 + a.toNat * 0x1000 + b.toNat * 0x80 + s.toNat * 0x8 < 2 ^ 29
  omega
theorem amoOr (d : BitVec 5) (a : BitVec 5) (b : BitVec 5) (s : BitVec 4) : Statement (.amoOr d a b s) := by
  show 0x9C00002 + d.toNat * 0x20000 + a.toNat * 0x1000 + b.toNat * 0x80 + s.toNat * 0x8 < 2 ^ 29
  omega
theorem amoXor (d : BitVec 5) (a : BitVec 5) (b : BitVec 5) (s : BitVec 4) : Statement (.amoXor d a b s) := by
  show 0x9C00003 + d.toNat * 0x20000 + a.toNat * 0x1000 + b.toNat * 0x80 + s.toNat * 0x8 < 2 ^ 29
  omega
theorem amoMin (d : BitVec 5) (a : BitVec 5) (b : BitVec 5) (s : BitVec 4) : Statement (.amoMin d a b s) := by
  show 0x9C00004 + d.toNat * 0x20000 + a.toNat * 0x1000 + b.toNat * 0x80 + s.toNat * 0x8 < 2 ^ 29
  omega
theorem amoMax (d : BitVec 5) (a : BitVec 5) (b : BitVec 5) (s : BitVec 4) : Statement (.amoMax d a b s) := by
  show 0x9C00005 + d.toNat * 0x20000 + a.toNat * 0x1000 + b.toNat * 0x80 + s.toNat * 0x8 < 2 ^ 29
  omega
theorem amoSwap (d : BitVec 5) (a : BitVec 5) (b : BitVec 5) (s : BitVec 4) : Statement (.amoSwap d a b s) := by
  show 0x9C00006 + d.toNat * 0x20000 + a.toNat * 0x1000 + b.toNat * 0x80 + s.toNat * 0x8 < 2 ^ 29
  omega
theorem amoCas (d : BitVec 5) (a : BitVec 5) (b : BitVec 5) (s : BitVec 4) : Statement (.amoCas d a b s) := by
  show 0x9C00007 + d.toNat * 0x20000 + a.toNat * 0x1000 + b.toNat * 0x80 + s.toNat * 0x8 < 2 ^ 29
  omega
theorem fence (e : BitVec 1) (m : BitVec 1) (r : BitVec 1) (s : BitVec 3) : Statement (.fence e m r s) := by
  show 0xA000000 + e.toNat * 0x20 + m.toNat * 0x10 + r.toNat * 0x8 + s.toNat < 2 ^ 29
  omega
theorem lfence (l : BitVec 3) : Statement (.lfence l) := by
  show 0xA400000 + l.toNat < 2 ^ 29
  omega
theorem acvtOff (d : BitVec 5) (a : BitVec 5) : Statement (.acvtOff d a) := by
  show 0xA800000 + d.toNat * 0x20000 + a.toNat * 0x1000 < 2 ^ 29
  omega
theorem acvtG (d : BitVec 5) (a : BitVec 5) : Statement (.acvtG d a) := by
  show 0xA800001 + d.toNat * 0x20000 + a.toNat * 0x1000 < 2 ^ 29
  omega
theorem acvtL (d : BitVec 5) (a : BitVec 5) : Statement (.acvtL d a) := by
  show 0xA800002 + d.toNat * 0x20000 + a.toNat * 0x1000 < 2 ^ 29
  omega
theorem acvtC (d : BitVec 5) (a : BitVec 5) : Statement (.acvtC d a) := by
  show 0xA800003 + d.toNat * 0x20000 + a.toNat * 0x1000 < 2 ^ 29
  omega
theorem acvtLc (d : BitVec 5) (a : BitVec 5) : Statement (.acvtLc d a) := by
  show 0xA800004 + d.toNat * 0x20000 + a.toNat * 0x1000 < 2 ^ 29
  omega
theorem acvtCl (d : BitVec 5) (a : BitVec 5) : Statement (.acvtCl d a) := by
  show 0xA800005 + d.toNat * 0x20000 + a.toNat * 0x1000 < 2 ^ 29
  omega
theorem atest (d : BitVec 5) (a : BitVec 5) : Statement (.atest d a) := by
  show 0xAC00000 + d.toNat * 0x20000 + a.toNat * 0x1000 < 2 ^ 29
  omega
theorem recv (d : BitVec 5) (c : BitVec 7) : Statement (.recv d c) := by
  show 0xC000000 + d.toNat * 0x20000 + c.toNat < 2 ^ 29
  omega
theorem send (d : BitVec 5) (c : BitVec 7) : Statement (.send d c) := by
  show 0xC400000 + d.toNat * 0x20000 + c.toNat < 2 ^ 29
  omega
theorem peek (d : BitVec 5) (k : BitVec 4) (c : BitVec 7) : Statement (.peek d k c) := by
  show 0xC800000 + d.toNat * 0x20000 + k.toNat * 0x80 + c.toNat < 2 ^ 29
  omega
theorem chst (d : BitVec 5) (c : BitVec 7) : Statement (.chst d c) := by
  show 0xCC00000 + d.toNat * 0x20000 + c.toNat < 2 ^ 29
  omega
theorem bella (l : BitVec 5) : Statement (.bella l) := by
  show 0xD000000 + l.toNat < 2 ^ 29
  omega
theorem bellw (d : BitVec 5) (l : BitVec 5) : Statement (.bellw d l) := by
  show 0xD400000 + d.toNat * 0x20000 + l.toNat < 2 ^ 29
  omega
theorem bellt (d : BitVec 5) (l : BitVec 5) : Statement (.bellt d l) := by
  show 0xD800000 + d.toNat * 0x20000 + l.toNat < 2 ^ 29
  omega
theorem pbarr (d : BitVec 5) (a : BitVec 5) (b : BitVec 5) (s : BitVec 4) : Statement (.pbarr d a b s) := by
  show 0xDC00000 + d.toNat * 0x20000 + a.toNat * 0x1000 + b.toNat * 0x80 + s.toNat < 2 ^ 29
  omega
theorem pbwait (d : BitVec 5) (a : BitVec 5) (b : BitVec 5) (s : BitVec 4) : Statement (.pbwait d a b s) := by
  show 0xE000000 + d.toNat * 0x20000 + a.toNat * 0x1000 + b.toNat * 0x80 + s.toNat < 2 ^ 29
  omega
theorem mwait (d : BitVec 5) (a : BitVec 5) (b : BitVec 5) (c : BitVec 2) (z : BitVec 1) (s : BitVec 4) : Statement (.mwait d a b c z s) := by
  show 0xE400000 + d.toNat * 0x20000 + a.toNat * 0x1000 + b.toNat * 0x80 + c.toNat * 0x20 + z.toNat * 0x10 + s.toNat < 2 ^ 29
  omega
theorem cpy (d : BitVec 5) (a : BitVec 5) (b : BitVec 5) (s : BitVec 3) : Statement (.cpy d a b s) := by
  show 0x10000000 + d.toNat * 0x20000 + a.toNat * 0x1000 + b.toNat * 0x80 + s.toNat * 0x2 < 2 ^ 29
  omega
theorem cpyS (d : BitVec 5) (a : BitVec 5) (b : BitVec 5) (s : BitVec 3) : Statement (.cpyS d a b s) := by
  show 0x10000001 + d.toNat * 0x20000 + a.toNat * 0x1000 + b.toNat * 0x80 + s.toNat * 0x2 < 2 ^ 29
  omega
theorem ctarm (a : BitVec 5) (n : BitVec 4) : Statement (.ctarm a n) := by
  show 0x10400000 + a.toNat * 0x1000 + n.toNat < 2 ^ 29
  omega
theorem ctarmOff (n : BitVec 4) : Statement (.ctarmOff n) := by
  show 0x10400010 + n.toNat < 2 ^ 29
  omega
theorem lswap (d : BitVec 5) (a : BitVec 5) : Statement (.lswap d a) := by
  show 0x10800000 + d.toNat * 0x20000 + a.toNat * 0x1000 < 2 ^ 29
  omega
theorem kvapp (d : BitVec 5) (a : BitVec 5) (b : BitVec 5) (z : BitVec 3) : Statement (.kvapp d a b z) := by
  show 0x10C00000 + d.toNat * 0x20000 + a.toNat * 0x1000 + b.toNat * 0x80 + z.toNat < 2 ^ 29
  omega
theorem ktbfill (a : BitVec 5) (b : BitVec 5) : Statement (.ktbfill a b) := by
  show 0x11000000 + a.toNat * 0x1000 + b.toNat * 0x80 < 2 ^ 29
  omega
theorem ktbinvOne (a : BitVec 5) : Statement (.ktbinvOne a) := by
  show 0x11400000 + a.toNat * 0x1000 < 2 ^ 29
  omega
theorem ktbinvSeq (a : BitVec 5) : Statement (.ktbinvSeq a) := by
  show 0x11400001 + a.toNat * 0x1000 < 2 ^ 29
  omega
theorem ktbinvAll : Statement .ktbinvAll := by decide
theorem flpop (d : BitVec 5) : Statement (.flpop d) := by
  show 0x11800000 + d.toNat * 0x20000 < 2 ^ 29
  omega
theorem flpush (d : BitVec 5) (a : BitVec 5) : Statement (.flpush d a) := by
  show 0x11C00000 + d.toNat * 0x20000 + a.toNat * 0x1000 < 2 ^ 29
  omega
theorem ssld (d : BitVec 5) (a : BitVec 5) (b : BitVec 5) : Statement (.ssld d a b) := by
  show 0x12000000 + d.toNat * 0x20000 + a.toNat * 0x1000 + b.toNat * 0x80 < 2 ^ 29
  omega
theorem ssst (d : BitVec 5) (a : BitVec 5) (b : BitVec 5) (n : BitVec 1) : Statement (.ssst d a b n) := by
  show 0x12400000 + d.toNat * 0x20000 + a.toNat * 0x1000 + b.toNat * 0x80 + n.toNat < 2 ^ 29
  omega
theorem ssnap (d : BitVec 5) (b : BitVec 5) : Statement (.ssnap d b) := by
  show 0x12800000 + d.toNat * 0x20000 + b.toNat * 0x80 < 2 ^ 29
  omega
theorem ssroll (d : BitVec 5) (b : BitVec 5) : Statement (.ssroll d b) := by
  show 0x12C00000 + d.toNat * 0x20000 + b.toNat * 0x80 < 2 ^ 29
  omega
theorem ssfork (d : BitVec 5) (a : BitVec 5) (b : BitVec 5) : Statement (.ssfork d a b) := by
  show 0x13000000 + d.toNat * 0x20000 + a.toNat * 0x1000 + b.toNat * 0x80 < 2 ^ 29
  omega
theorem ssdrop (d : BitVec 5) (b : BitVec 5) : Statement (.ssdrop d b) := by
  show 0x13400000 + d.toNat * 0x20000 + b.toNat * 0x80 < 2 ^ 29
  omega
theorem add (d : BitVec 5) (a : BitVec 5) (b : BitVec 5) : Statement (.add d a b) := by
  show 0x0 + d.toNat * 0x20000 + a.toNat * 0x1000 + b.toNat * 0x80 < 2 ^ 29
  omega
theorem sub (d : BitVec 5) (a : BitVec 5) (b : BitVec 5) : Statement (.sub d a b) := by
  show 0x1 + d.toNat * 0x20000 + a.toNat * 0x1000 + b.toNat * 0x80 < 2 ^ 29
  omega
theorem and (d : BitVec 5) (a : BitVec 5) (b : BitVec 5) : Statement (.and d a b) := by
  show 0x2 + d.toNat * 0x20000 + a.toNat * 0x1000 + b.toNat * 0x80 < 2 ^ 29
  omega
theorem or (d : BitVec 5) (a : BitVec 5) (b : BitVec 5) : Statement (.or d a b) := by
  show 0x3 + d.toNat * 0x20000 + a.toNat * 0x1000 + b.toNat * 0x80 < 2 ^ 29
  omega
theorem xor (d : BitVec 5) (a : BitVec 5) (b : BitVec 5) : Statement (.xor d a b) := by
  show 0x4 + d.toNat * 0x20000 + a.toNat * 0x1000 + b.toNat * 0x80 < 2 ^ 29
  omega
theorem shl (d : BitVec 5) (a : BitVec 5) (b : BitVec 5) : Statement (.shl d a b) := by
  show 0x5 + d.toNat * 0x20000 + a.toNat * 0x1000 + b.toNat * 0x80 < 2 ^ 29
  omega
theorem shr (d : BitVec 5) (a : BitVec 5) (b : BitVec 5) : Statement (.shr d a b) := by
  show 0x6 + d.toNat * 0x20000 + a.toNat * 0x1000 + b.toNat * 0x80 < 2 ^ 29
  omega
theorem sar (d : BitVec 5) (a : BitVec 5) (b : BitVec 5) : Statement (.sar d a b) := by
  show 0x7 + d.toNat * 0x20000 + a.toNat * 0x1000 + b.toNat * 0x80 < 2 ^ 29
  omega
theorem slt (d : BitVec 5) (a : BitVec 5) (b : BitVec 5) : Statement (.slt d a b) := by
  show 0x8 + d.toNat * 0x20000 + a.toNat * 0x1000 + b.toNat * 0x80 < 2 ^ 29
  omega
theorem sltu (d : BitVec 5) (a : BitVec 5) (b : BitVec 5) : Statement (.sltu d a b) := by
  show 0x9 + d.toNat * 0x20000 + a.toNat * 0x1000 + b.toNat * 0x80 < 2 ^ 29
  omega
theorem min (d : BitVec 5) (a : BitVec 5) (b : BitVec 5) : Statement (.min d a b) := by
  show 0xA + d.toNat * 0x20000 + a.toNat * 0x1000 + b.toNat * 0x80 < 2 ^ 29
  omega
theorem max (d : BitVec 5) (a : BitVec 5) (b : BitVec 5) : Statement (.max d a b) := by
  show 0xB + d.toNat * 0x20000 + a.toNat * 0x1000 + b.toNat * 0x80 < 2 ^ 29
  omega
theorem minu (d : BitVec 5) (a : BitVec 5) (b : BitVec 5) : Statement (.minu d a b) := by
  show 0xC + d.toNat * 0x20000 + a.toNat * 0x1000 + b.toNat * 0x80 < 2 ^ 29
  omega
theorem maxu (d : BitVec 5) (a : BitVec 5) (b : BitVec 5) : Statement (.maxu d a b) := by
  show 0xD + d.toNat * 0x20000 + a.toNat * 0x1000 + b.toNat * 0x80 < 2 ^ 29
  omega
theorem clz (d : BitVec 5) (a : BitVec 5) : Statement (.clz d a) := by
  show 0xE + d.toNat * 0x20000 + a.toNat * 0x1000 < 2 ^ 29
  omega
theorem popc (d : BitVec 5) (a : BitVec 5) : Statement (.popc d a) := by
  show 0xF + d.toNat * 0x20000 + a.toNat * 0x1000 < 2 ^ 29
  omega
theorem andn (d : BitVec 5) (a : BitVec 5) (b : BitVec 5) : Statement (.andn d a b) := by
  show 0x10 + d.toNat * 0x20000 + a.toNat * 0x1000 + b.toNat * 0x80 < 2 ^ 29
  omega
theorem addi (d : BitVec 5) (a : BitVec 5) (i : BitVec 12) : Statement (.addi d a i) := by
  show 0x400000 + d.toNat * 0x20000 + a.toNat * 0x1000 + i.toNat < 2 ^ 29
  omega
theorem andi (d : BitVec 5) (a : BitVec 5) (i : BitVec 12) : Statement (.andi d a i) := by
  show 0x800000 + d.toNat * 0x20000 + a.toNat * 0x1000 + i.toNat < 2 ^ 29
  omega
theorem ori (d : BitVec 5) (a : BitVec 5) (i : BitVec 12) : Statement (.ori d a i) := by
  show 0xC00000 + d.toNat * 0x20000 + a.toNat * 0x1000 + i.toNat < 2 ^ 29
  omega
theorem xori (d : BitVec 5) (a : BitVec 5) (i : BitVec 12) : Statement (.xori d a i) := by
  show 0x1000000 + d.toNat * 0x20000 + a.toNat * 0x1000 + i.toNat < 2 ^ 29
  omega
theorem shli (d : BitVec 5) (a : BitVec 5) (i : BitVec 6) : Statement (.shli d a i) := by
  show 0x1400000 + d.toNat * 0x20000 + a.toNat * 0x1000 + i.toNat < 2 ^ 29
  omega
theorem shri (d : BitVec 5) (a : BitVec 5) (i : BitVec 6) : Statement (.shri d a i) := by
  show 0x1800000 + d.toNat * 0x20000 + a.toNat * 0x1000 + i.toNat < 2 ^ 29
  omega
theorem sari (d : BitVec 5) (a : BitVec 5) (i : BitVec 6) : Statement (.sari d a i) := by
  show 0x1C00000 + d.toNat * 0x20000 + a.toNat * 0x1000 + i.toNat < 2 ^ 29
  omega
theorem slti (d : BitVec 5) (a : BitVec 5) (i : BitVec 12) : Statement (.slti d a i) := by
  show 0x2000000 + d.toNat * 0x20000 + a.toNat * 0x1000 + i.toNat < 2 ^ 29
  omega
theorem sltiu (d : BitVec 5) (a : BitVec 5) (i : BitVec 12) : Statement (.sltiu d a i) := by
  show 0x2400000 + d.toNat * 0x20000 + a.toNat * 0x1000 + i.toNat < 2 ^ 29
  omega
theorem mul (d : BitVec 5) (a : BitVec 5) (b : BitVec 5) : Statement (.mul d a b) := by
  show 0x2800000 + d.toNat * 0x20000 + a.toNat * 0x1000 + b.toNat * 0x80 < 2 ^ 29
  omega
theorem mulhs (d : BitVec 5) (a : BitVec 5) (b : BitVec 5) : Statement (.mulhs d a b) := by
  show 0x2800001 + d.toNat * 0x20000 + a.toNat * 0x1000 + b.toNat * 0x80 < 2 ^ 29
  omega
theorem mulhu (d : BitVec 5) (a : BitVec 5) (b : BitVec 5) : Statement (.mulhu d a b) := by
  show 0x2800002 + d.toNat * 0x20000 + a.toNat * 0x1000 + b.toNat * 0x80 < 2 ^ 29
  omega
theorem mulhm (d : BitVec 5) (a : BitVec 5) (b : BitVec 5) : Statement (.mulhm d a b) := by
  show 0x2800003 + d.toNat * 0x20000 + a.toNat * 0x1000 + b.toNat * 0x80 < 2 ^ 29
  omega
theorem mul32s (d : BitVec 5) (a : BitVec 5) (b : BitVec 5) : Statement (.mul32s d a b) := by
  show 0x2800004 + d.toNat * 0x20000 + a.toNat * 0x1000 + b.toNat * 0x80 < 2 ^ 29
  omega
theorem divs (d : BitVec 5) (a : BitVec 5) (b : BitVec 5) : Statement (.divs d a b) := by
  show 0x2C00000 + d.toNat * 0x20000 + a.toNat * 0x1000 + b.toNat * 0x80 < 2 ^ 29
  omega
theorem divu (d : BitVec 5) (a : BitVec 5) (b : BitVec 5) : Statement (.divu d a b) := by
  show 0x2C00001 + d.toNat * 0x20000 + a.toNat * 0x1000 + b.toNat * 0x80 < 2 ^ 29
  omega
theorem rems (d : BitVec 5) (a : BitVec 5) (b : BitVec 5) : Statement (.rems d a b) := by
  show 0x2C00002 + d.toNat * 0x20000 + a.toNat * 0x1000 + b.toNat * 0x80 < 2 ^ 29
  omega
theorem remu (d : BitVec 5) (a : BitVec 5) (b : BitVec 5) : Statement (.remu d a b) := by
  show 0x2C00003 + d.toNat * 0x20000 + a.toNat * 0x1000 + b.toNat * 0x80 < 2 ^ 29
  omega
theorem li (d : BitVec 5) (i : BitVec 17) : Statement (.li d i) := by
  show 0x3000000 + d.toNat * 0x20000 + i.toNat < 2 ^ 29
  omega
theorem lis (d : BitVec 5) (i : BitVec 17) : Statement (.lis d i) := by
  show 0x3400000 + d.toNat * 0x20000 + i.toNat < 2 ^ 29
  omega
theorem fadd (d : BitVec 5) (a : BitVec 5) (b : BitVec 5) (m : BitVec 3) : Statement (.fadd d a b m) := by
  show 0x4000000 + d.toNat * 0x20000 + a.toNat * 0x1000 + b.toNat * 0x80 + m.toNat * 0x10 < 2 ^ 29
  omega
theorem fsub (d : BitVec 5) (a : BitVec 5) (b : BitVec 5) (m : BitVec 3) : Statement (.fsub d a b m) := by
  show 0x4000001 + d.toNat * 0x20000 + a.toNat * 0x1000 + b.toNat * 0x80 + m.toNat * 0x10 < 2 ^ 29
  omega
theorem fmul (d : BitVec 5) (a : BitVec 5) (b : BitVec 5) (m : BitVec 3) : Statement (.fmul d a b m) := by
  show 0x4000002 + d.toNat * 0x20000 + a.toNat * 0x1000 + b.toNat * 0x80 + m.toNat * 0x10 < 2 ^ 29
  omega
theorem fdiv (d : BitVec 5) (a : BitVec 5) (b : BitVec 5) (m : BitVec 3) : Statement (.fdiv d a b m) := by
  show 0x4000003 + d.toNat * 0x20000 + a.toNat * 0x1000 + b.toNat * 0x80 + m.toNat * 0x10 < 2 ^ 29
  omega
theorem fsqrt (d : BitVec 5) (a : BitVec 5) (m : BitVec 3) : Statement (.fsqrt d a m) := by
  show 0x4000004 + d.toNat * 0x20000 + a.toNat * 0x1000 + m.toNat * 0x10 < 2 ^ 29
  omega
theorem fmin (d : BitVec 5) (a : BitVec 5) (b : BitVec 5) : Statement (.fmin d a b) := by
  show 0x4000005 + d.toNat * 0x20000 + a.toNat * 0x1000 + b.toNat * 0x80 < 2 ^ 29
  omega
theorem fmax (d : BitVec 5) (a : BitVec 5) (b : BitVec 5) : Statement (.fmax d a b) := by
  show 0x4000006 + d.toNat * 0x20000 + a.toNat * 0x1000 + b.toNat * 0x80 < 2 ^ 29
  omega
theorem fabs (d : BitVec 5) (a : BitVec 5) : Statement (.fabs d a) := by
  show 0x4000007 + d.toNat * 0x20000 + a.toNat * 0x1000 < 2 ^ 29
  omega
theorem fneg (d : BitVec 5) (a : BitVec 5) : Statement (.fneg d a) := by
  show 0x4000008 + d.toNat * 0x20000 + a.toNat * 0x1000 < 2 ^ 29
  omega
theorem fmadd (d : BitVec 5) (a : BitVec 5) (b : BitVec 5) (m : BitVec 3) : Statement (.fmadd d a b m) := by
  show 0x4400000 + d.toNat * 0x20000 + a.toNat * 0x1000 + b.toNat * 0x80 + m.toNat * 0x10 < 2 ^ 29
  omega
theorem fmsub (d : BitVec 5) (a : BitVec 5) (b : BitVec 5) (m : BitVec 3) : Statement (.fmsub d a b m) := by
  show 0x4400001 + d.toNat * 0x20000 + a.toNat * 0x1000 + b.toNat * 0x80 + m.toNat * 0x10 < 2 ^ 29
  omega
theorem fnmadd (d : BitVec 5) (a : BitVec 5) (b : BitVec 5) (m : BitVec 3) : Statement (.fnmadd d a b m) := by
  show 0x4400002 + d.toNat * 0x20000 + a.toNat * 0x1000 + b.toNat * 0x80 + m.toNat * 0x10 < 2 ^ 29
  omega
theorem fnmsub (d : BitVec 5) (a : BitVec 5) (b : BitVec 5) (m : BitVec 3) : Statement (.fnmsub d a b m) := by
  show 0x4400003 + d.toNat * 0x20000 + a.toNat * 0x1000 + b.toNat * 0x80 + m.toNat * 0x10 < 2 ^ 29
  omega
theorem fcmp (d : BitVec 5) (a : BitVec 5) (b : BitVec 5) (c : BitVec 3) : Statement (.fcmp d a b c) := by
  show 0x4800000 + d.toNat * 0x20000 + a.toNat * 0x1000 + b.toNat * 0x80 + c.toNat < 2 ^ 29
  omega
theorem fcvtF32L (d : BitVec 5) (a : BitVec 5) (m : BitVec 3) (s : BitVec 1) : Statement (.fcvtF32L d a m s) := by
  show 0x4C00000 + d.toNat * 0x20000 + a.toNat * 0x1000 + m.toNat * 0x10 + s.toNat * 0x8 < 2 ^ 29
  omega
theorem fcvtF32Lu (d : BitVec 5) (a : BitVec 5) (m : BitVec 3) (s : BitVec 1) : Statement (.fcvtF32Lu d a m s) := by
  show 0x4C00001 + d.toNat * 0x20000 + a.toNat * 0x1000 + m.toNat * 0x10 + s.toNat * 0x8 < 2 ^ 29
  omega
theorem fcvtLF32 (d : BitVec 5) (a : BitVec 5) (m : BitVec 3) : Statement (.fcvtLF32 d a m) := by
  show 0x4C00002 + d.toNat * 0x20000 + a.toNat * 0x1000 + m.toNat * 0x10 < 2 ^ 29
  omega
theorem fcvtLuF32 (d : BitVec 5) (a : BitVec 5) (m : BitVec 3) : Statement (.fcvtLuF32 d a m) := by
  show 0x4C00003 + d.toNat * 0x20000 + a.toNat * 0x1000 + m.toNat * 0x10 < 2 ^ 29
  omega
theorem fcvtWF32 (d : BitVec 5) (a : BitVec 5) (m : BitVec 3) : Statement (.fcvtWF32 d a m) := by
  show 0x4C00004 + d.toNat * 0x20000 + a.toNat * 0x1000 + m.toNat * 0x10 < 2 ^ 29
  omega
theorem fcvtBf16F32 (d : BitVec 5) (a : BitVec 5) (m : BitVec 3) (s : BitVec 1) : Statement (.fcvtBf16F32 d a m s) := by
  show 0x4C00005 + d.toNat * 0x20000 + a.toNat * 0x1000 + m.toNat * 0x10 + s.toNat * 0x8 < 2 ^ 29
  omega
theorem fcvtF32Bf16 (d : BitVec 5) (a : BitVec 5) : Statement (.fcvtF32Bf16 d a) := by
  show 0x4C00006 + d.toNat * 0x20000 + a.toNat * 0x1000 < 2 ^ 29
  omega
theorem vadd (d : BitVec 5) (a : BitVec 5) (b : BitVec 5) (t : BitVec 3) : Statement (.vadd d a b t) := by
  show 0x8000000 + d.toNat * 0x20000 + a.toNat * 0x1000 + b.toNat * 0x80 + t.toNat * 0x10 < 2 ^ 29
  omega
theorem vsub (d : BitVec 5) (a : BitVec 5) (b : BitVec 5) (t : BitVec 3) : Statement (.vsub d a b t) := by
  show 0x8000001 + d.toNat * 0x20000 + a.toNat * 0x1000 + b.toNat * 0x80 + t.toNat * 0x10 < 2 ^ 29
  omega
theorem vadds (d : BitVec 5) (a : BitVec 5) (b : BitVec 5) (t : BitVec 3) : Statement (.vadds d a b t) := by
  show 0x8000002 + d.toNat * 0x20000 + a.toNat * 0x1000 + b.toNat * 0x80 + t.toNat * 0x10 < 2 ^ 29
  omega
theorem vsubs (d : BitVec 5) (a : BitVec 5) (b : BitVec 5) (t : BitVec 3) : Statement (.vsubs d a b t) := by
  show 0x8000003 + d.toNat * 0x20000 + a.toNat * 0x1000 + b.toNat * 0x80 + t.toNat * 0x10 < 2 ^ 29
  omega
theorem vmul (d : BitVec 5) (a : BitVec 5) (b : BitVec 5) (t : BitVec 3) : Statement (.vmul d a b t) := by
  show 0x8000004 + d.toNat * 0x20000 + a.toNat * 0x1000 + b.toNat * 0x80 + t.toNat * 0x10 < 2 ^ 29
  omega
theorem vmulh (d : BitVec 5) (a : BitVec 5) (b : BitVec 5) (t : BitVec 3) : Statement (.vmulh d a b t) := by
  show 0x8000005 + d.toNat * 0x20000 + a.toNat * 0x1000 + b.toNat * 0x80 + t.toNat * 0x10 < 2 ^ 29
  omega
theorem vmin (d : BitVec 5) (a : BitVec 5) (b : BitVec 5) (t : BitVec 3) : Statement (.vmin d a b t) := by
  show 0x8000006 + d.toNat * 0x20000 + a.toNat * 0x1000 + b.toNat * 0x80 + t.toNat * 0x10 < 2 ^ 29
  omega
theorem vmax (d : BitVec 5) (a : BitVec 5) (b : BitVec 5) (t : BitVec 3) : Statement (.vmax d a b t) := by
  show 0x8000007 + d.toNat * 0x20000 + a.toNat * 0x1000 + b.toNat * 0x80 + t.toNat * 0x10 < 2 ^ 29
  omega
theorem vand (d : BitVec 5) (a : BitVec 5) (b : BitVec 5) (t : BitVec 3) : Statement (.vand d a b t) := by
  show 0x8000008 + d.toNat * 0x20000 + a.toNat * 0x1000 + b.toNat * 0x80 + t.toNat * 0x10 < 2 ^ 29
  omega
theorem vor (d : BitVec 5) (a : BitVec 5) (b : BitVec 5) (t : BitVec 3) : Statement (.vor d a b t) := by
  show 0x8000009 + d.toNat * 0x20000 + a.toNat * 0x1000 + b.toNat * 0x80 + t.toNat * 0x10 < 2 ^ 29
  omega
theorem vxor (d : BitVec 5) (a : BitVec 5) (b : BitVec 5) (t : BitVec 3) : Statement (.vxor d a b t) := by
  show 0x800000A + d.toNat * 0x20000 + a.toNat * 0x1000 + b.toNat * 0x80 + t.toNat * 0x10 < 2 ^ 29
  omega
theorem vshl (d : BitVec 5) (a : BitVec 5) (b : BitVec 5) (t : BitVec 3) : Statement (.vshl d a b t) := by
  show 0x800000B + d.toNat * 0x20000 + a.toNat * 0x1000 + b.toNat * 0x80 + t.toNat * 0x10 < 2 ^ 29
  omega
theorem vshr (d : BitVec 5) (a : BitVec 5) (b : BitVec 5) (t : BitVec 3) : Statement (.vshr d a b t) := by
  show 0x800000C + d.toNat * 0x20000 + a.toNat * 0x1000 + b.toNat * 0x80 + t.toNat * 0x10 < 2 ^ 29
  omega
theorem vsar (d : BitVec 5) (a : BitVec 5) (b : BitVec 5) (t : BitVec 3) : Statement (.vsar d a b t) := by
  show 0x800000D + d.toNat * 0x20000 + a.toNat * 0x1000 + b.toNat * 0x80 + t.toNat * 0x10 < 2 ^ 29
  omega
theorem vabs (d : BitVec 5) (a : BitVec 5) (t : BitVec 3) : Statement (.vabs d a t) := by
  show 0x800000E + d.toNat * 0x20000 + a.toNat * 0x1000 + t.toNat * 0x10 < 2 ^ 29
  omega
theorem vfadd (d : BitVec 5) (a : BitVec 5) (b : BitVec 5) (t : BitVec 3) : Statement (.vfadd d a b t) := by
  show 0x8400000 + d.toNat * 0x20000 + a.toNat * 0x1000 + b.toNat * 0x80 + t.toNat * 0x10 < 2 ^ 29
  omega
theorem vfsub (d : BitVec 5) (a : BitVec 5) (b : BitVec 5) (t : BitVec 3) : Statement (.vfsub d a b t) := by
  show 0x8400001 + d.toNat * 0x20000 + a.toNat * 0x1000 + b.toNat * 0x80 + t.toNat * 0x10 < 2 ^ 29
  omega
theorem vfmul (d : BitVec 5) (a : BitVec 5) (b : BitVec 5) (t : BitVec 3) : Statement (.vfmul d a b t) := by
  show 0x8400002 + d.toNat * 0x20000 + a.toNat * 0x1000 + b.toNat * 0x80 + t.toNat * 0x10 < 2 ^ 29
  omega
theorem vfdiv (d : BitVec 5) (a : BitVec 5) (b : BitVec 5) (t : BitVec 3) : Statement (.vfdiv d a b t) := by
  show 0x8400003 + d.toNat * 0x20000 + a.toNat * 0x1000 + b.toNat * 0x80 + t.toNat * 0x10 < 2 ^ 29
  omega
theorem vfsqrt (d : BitVec 5) (a : BitVec 5) (t : BitVec 3) : Statement (.vfsqrt d a t) := by
  show 0x8400004 + d.toNat * 0x20000 + a.toNat * 0x1000 + t.toNat * 0x10 < 2 ^ 29
  omega
theorem vfmin (d : BitVec 5) (a : BitVec 5) (b : BitVec 5) (t : BitVec 3) : Statement (.vfmin d a b t) := by
  show 0x8400005 + d.toNat * 0x20000 + a.toNat * 0x1000 + b.toNat * 0x80 + t.toNat * 0x10 < 2 ^ 29
  omega
theorem vfmax (d : BitVec 5) (a : BitVec 5) (b : BitVec 5) (t : BitVec 3) : Statement (.vfmax d a b t) := by
  show 0x8400006 + d.toNat * 0x20000 + a.toNat * 0x1000 + b.toNat * 0x80 + t.toNat * 0x10 < 2 ^ 29
  omega
theorem vfabs (d : BitVec 5) (a : BitVec 5) (t : BitVec 3) : Statement (.vfabs d a t) := by
  show 0x8400007 + d.toNat * 0x20000 + a.toNat * 0x1000 + t.toNat * 0x10 < 2 ^ 29
  omega
theorem vfneg (d : BitVec 5) (a : BitVec 5) (t : BitVec 3) : Statement (.vfneg d a t) := by
  show 0x8400008 + d.toNat * 0x20000 + a.toNat * 0x1000 + t.toNat * 0x10 < 2 ^ 29
  omega
theorem vfmadd (d : BitVec 5) (a : BitVec 5) (b : BitVec 5) (t : BitVec 3) : Statement (.vfmadd d a b t) := by
  show 0x8800000 + d.toNat * 0x20000 + a.toNat * 0x1000 + b.toNat * 0x80 + t.toNat * 0x10 < 2 ^ 29
  omega
theorem vfmsub (d : BitVec 5) (a : BitVec 5) (b : BitVec 5) (t : BitVec 3) : Statement (.vfmsub d a b t) := by
  show 0x8800001 + d.toNat * 0x20000 + a.toNat * 0x1000 + b.toNat * 0x80 + t.toNat * 0x10 < 2 ^ 29
  omega
theorem vfnmadd (d : BitVec 5) (a : BitVec 5) (b : BitVec 5) (t : BitVec 3) : Statement (.vfnmadd d a b t) := by
  show 0x8800002 + d.toNat * 0x20000 + a.toNat * 0x1000 + b.toNat * 0x80 + t.toNat * 0x10 < 2 ^ 29
  omega
theorem vfnmsub (d : BitVec 5) (a : BitVec 5) (b : BitVec 5) (t : BitVec 3) : Statement (.vfnmsub d a b t) := by
  show 0x8800003 + d.toNat * 0x20000 + a.toNat * 0x1000 + b.toNat * 0x80 + t.toNat * 0x10 < 2 ^ 29
  omega
theorem vcmp (q : BitVec 3) (a : BitVec 5) (b : BitVec 5) (t : BitVec 3) (c : BitVec 3) : Statement (.vcmp q a b t c) := by
  show 0x8C00000 + q.toNat * 0x20000 + a.toNat * 0x1000 + b.toNat * 0x80 + t.toNat * 0x10 + c.toNat < 2 ^ 29
  omega
theorem qand (q : BitVec 3) (r : BitVec 3) (s : BitVec 3) : Statement (.qand q r s) := by
  show 0x8C00008 + q.toNat * 0x20000 + r.toNat * 0x1000 + s.toNat * 0x80 < 2 ^ 29
  omega
theorem qor (q : BitVec 3) (r : BitVec 3) (s : BitVec 3) : Statement (.qor q r s) := by
  show 0x8C00009 + q.toNat * 0x20000 + r.toNat * 0x1000 + s.toNat * 0x80 < 2 ^ 29
  omega
theorem qxor (q : BitVec 3) (r : BitVec 3) (s : BitVec 3) : Statement (.qxor q r s) := by
  show 0x8C0000A + q.toNat * 0x20000 + r.toNat * 0x1000 + s.toNat * 0x80 < 2 ^ 29
  omega
theorem qandn (q : BitVec 3) (r : BitVec 3) (s : BitVec 3) : Statement (.qandn q r s) := by
  show 0x8C0000B + q.toNat * 0x20000 + r.toNat * 0x1000 + s.toNat * 0x80 < 2 ^ 29
  omega
theorem qsetx (q : BitVec 3) (a : BitVec 5) : Statement (.qsetx q a) := by
  show 0x8C0000C + q.toNat * 0x20000 + a.toNat * 0x1000 < 2 ^ 29
  omega
theorem qgetx (d : BitVec 5) (r : BitVec 3) : Statement (.qgetx d r) := by
  show 0x8C0000D + d.toNat * 0x20000 + r.toNat * 0x1000 < 2 ^ 29
  omega
theorem vsel (d : BitVec 5) (a : BitVec 5) (b : BitVec 5) (t : BitVec 3) (q : BitVec 3) : Statement (.vsel d a b t q) := by
  show 0x9000000 + d.toNat * 0x20000 + a.toNat * 0x1000 + b.toNat * 0x80 + t.toNat * 0x10 + q.toNat < 2 ^ 29
  omega
theorem vbcastX (d : BitVec 5) (a : BitVec 5) (t : BitVec 3) : Statement (.vbcastX d a t) := by
  show 0x9400000 + d.toNat * 0x20000 + a.toNat * 0x1000 + t.toNat * 0x10 < 2 ^ 29
  omega
theorem vbcastLane (d : BitVec 5) (a : BitVec 5) (b : BitVec 5) (t : BitVec 3) : Statement (.vbcastLane d a b t) := by
  show 0x9400001 + d.toNat * 0x20000 + a.toNat * 0x1000 + b.toNat * 0x80 + t.toNat * 0x10 < 2 ^ 29
  omega
theorem vperm (d : BitVec 5) (a : BitVec 5) (b : BitVec 5) (t : BitVec 3) : Statement (.vperm d a b t) := by
  show 0x9800000 + d.toNat * 0x20000 + a.toNat * 0x1000 + b.toNat * 0x80 + t.toNat * 0x10 < 2 ^ 29
  omega
theorem vexp2 (d : BitVec 5) (a : BitVec 5) (t : BitVec 3) : Statement (.vexp2 d a t) := by
  show 0x9C00000 + d.toNat * 0x20000 + a.toNat * 0x1000 + t.toNat * 0x10 < 2 ^ 29
  omega
theorem vrcp (d : BitVec 5) (a : BitVec 5) (t : BitVec 3) : Statement (.vrcp d a t) := by
  show 0x9C00001 + d.toNat * 0x20000 + a.toNat * 0x1000 + t.toNat * 0x10 < 2 ^ 29
  omega
theorem vrsq (d : BitVec 5) (a : BitVec 5) (t : BitVec 3) : Statement (.vrsq d a t) := by
  show 0x9C00002 + d.toNat * 0x20000 + a.toNat * 0x1000 + t.toNat * 0x10 < 2 ^ 29
  omega
theorem vredAdd (d : BitVec 5) (a : BitVec 5) (q : BitVec 3) (t : BitVec 3) : Statement (.vredAdd d a q t) := by
  show 0xA000000 + d.toNat * 0x20000 + a.toNat * 0x1000 + q.toNat * 0x80 + t.toNat * 0x10 < 2 ^ 29
  omega
theorem vredMax (d : BitVec 5) (a : BitVec 5) (q : BitVec 3) (t : BitVec 3) : Statement (.vredMax d a q t) := by
  show 0xA000001 + d.toNat * 0x20000 + a.toNat * 0x1000 + q.toNat * 0x80 + t.toNat * 0x10 < 2 ^ 29
  omega
theorem vredMin (d : BitVec 5) (a : BitVec 5) (q : BitVec 3) (t : BitVec 3) : Statement (.vredMin d a q t) := by
  show 0xA000002 + d.toNat * 0x20000 + a.toNat * 0x1000 + q.toNat * 0x80 + t.toNat * 0x10 < 2 ^ 29
  omega
theorem vredMaxi (d : BitVec 5) (a : BitVec 5) (q : BitVec 3) (t : BitVec 3) : Statement (.vredMaxi d a q t) := by
  show 0xA000003 + d.toNat * 0x20000 + a.toNat * 0x1000 + q.toNat * 0x80 + t.toNat * 0x10 < 2 ^ 29
  omega
theorem vxtr (d : BitVec 5) (a : BitVec 5) (b : BitVec 5) (t : BitVec 3) : Statement (.vxtr d a b t) := by
  show 0xA000004 + d.toNat * 0x20000 + a.toNat * 0x1000 + b.toNat * 0x80 + t.toNat * 0x10 < 2 ^ 29
  omega
theorem vpopq (d : BitVec 5) (q : BitVec 3) (t : BitVec 3) : Statement (.vpopq d q t) := by
  show 0xA000005 + d.toNat * 0x20000 + q.toNat * 0x80 + t.toNat * 0x10 < 2 ^ 29
  omega
theorem vsumkAcc (d : BitVec 5) (a : BitVec 5) (q : BitVec 3) : Statement (.vsumkAcc d a q) := by
  show 0xA400000 + d.toNat * 0x20000 + a.toNat * 0x1000 + q.toNat * 0x80 < 2 ^ 29
  omega
theorem vsumkScale (d : BitVec 5) (a : BitVec 5) (q : BitVec 3) : Statement (.vsumkScale d a q) := by
  show 0xA400001 + d.toNat * 0x20000 + a.toNat * 0x1000 + q.toNat * 0x80 < 2 ^ 29
  omega
theorem vsumkFold (d : BitVec 5) (q : BitVec 3) : Statement (.vsumkFold d q) := by
  show 0xA400002 + d.toNat * 0x20000 + q.toNat * 0x80 < 2 ^ 29
  omega
theorem vsumkFin (d : BitVec 5) (q : BitVec 3) : Statement (.vsumkFin d q) := by
  show 0xA400003 + d.toNat * 0x20000 + q.toNat * 0x80 < 2 ^ 29
  omega
theorem vscan (d : BitVec 5) (a : BitVec 5) (q : BitVec 3) (t : BitVec 3) (c : BitVec 1) (o : BitVec 2) : Statement (.vscan d a q t c o) := by
  show 0xA800000 + d.toNat * 0x20000 + a.toNat * 0x1000 + q.toNat * 0x80 + t.toNat * 0x10 + c.toNat * 0x4 + o.toNat < 2 ^ 29
  omega
theorem vhad (d : BitVec 5) (a : BitVec 5) (k : BitVec 5) (t : BitVec 3) : Statement (.vhad d a k t) := by
  show 0xAC00000 + d.toNat * 0x20000 + a.toNat * 0x1000 + k.toNat * 0x80 + t.toNat * 0x10 < 2 ^ 29
  omega
theorem vcvt (d : BitVec 5) (a : BitVec 5) (k : BitVec 5) (t : BitVec 3) (s : BitVec 1) (m : BitVec 3) : Statement (.vcvt d a k t s m) := by
  show 0xB000000 + d.toNat * 0x20000 + a.toNat * 0x1000 + k.toNat * 0x80 + t.toNat * 0x10 + s.toNat * 0x8 + m.toNat < 2 ^ 29
  omega
theorem mzero (c : BitVec 3) (m : BitVec 1) : Statement (.mzero c m) := by
  show 0xC000000 + c.toNat * 0x80000 + m.toNat < 2 ^ 29
  omega
theorem mma (c : BitVec 3) (a : BitVec 5) (b : BitVec 5) (s : BitVec 2) : Statement (.mma c a b s) := by
  show 0xC400000 + c.toNat * 0x80000 + a.toNat * 0x4000 + b.toNat * 0x200 + s.toNat < 2 ^ 29
  omega
theorem mmag (c : BitVec 3) (a : BitVec 5) (b : BitVec 5) (s : BitVec 2) : Statement (.mmag c a b s) := by
  show 0xC800000 + c.toNat * 0x80000 + a.toNat * 0x4000 + b.toNat * 0x200 + s.toNat < 2 ^ 29
  omega
theorem mprom (c : BitVec 3) : Statement (.mprom c) := by
  show 0xCC00000 + c.toNat * 0x80000 < 2 ^ 29
  omega
theorem mrdW (c : BitVec 3) (v : BitVec 5) (b : BitVec 5) : Statement (.mrdW c v b) := by
  show 0xD000000 + c.toNat * 0x80000 + v.toNat * 0x4000 + b.toNat * 0x200 < 2 ^ 29
  omega
theorem mrdF32 (c : BitVec 3) (v : BitVec 5) (b : BitVec 5) (s : BitVec 1) (m : BitVec 3) : Statement (.mrdF32 c v b s m) := by
  show 0xD000001 + c.toNat * 0x80000 + v.toNat * 0x4000 + b.toNat * 0x200 + s.toNat * 0x40 + m.toNat * 0x8 < 2 ^ 29
  omega
theorem mrdBf16 (c : BitVec 3) (v : BitVec 5) (b : BitVec 5) (s : BitVec 1) (m : BitVec 3) : Statement (.mrdBf16 c v b s m) := by
  show 0xD000002 + c.toNat * 0x80000 + v.toNat * 0x4000 + b.toNat * 0x200 + s.toNat * 0x40 + m.toNat * 0x8 < 2 ^ 29
  omega
theorem mrdRaw (c : BitVec 3) (v : BitVec 5) (b : BitVec 5) : Statement (.mrdRaw c v b) := by
  show 0xD000003 + c.toNat * 0x80000 + v.toNat * 0x4000 + b.toNat * 0x200 < 2 ^ 29
  omega
theorem mrdStat (c : BitVec 3) (v : BitVec 5) : Statement (.mrdStat c v) := by
  show 0xD000004 + c.toNat * 0x80000 + v.toNat * 0x4000 < 2 ^ 29
  omega
theorem mst (c : BitVec 3) (a : BitVec 5) (b : BitVec 5) (e : BitVec 1) (s : BitVec 1) (m : BitVec 3) : Statement (.mst c a b e s m) := by
  show 0xD400000 + c.toNat * 0x80000 + a.toNat * 0x4000 + b.toNat * 0x200 + e.toNat * 0x10 + s.toNat * 0x8 + m.toNat < 2 ^ 29
  omega
theorem mscl (c : BitVec 3) (a : BitVec 5) (r : BitVec 1) : Statement (.mscl c a r) := by
  show 0xD800000 + c.toNat * 0x80000 + a.toNat * 0x4000 + r.toNat < 2 ^ 29
  omega
theorem seedx (d : BitVec 5) (a : BitVec 5) (b : BitVec 5) : Statement (.seedx d a b) := by
  show 0xE000000 + d.toNat * 0x20000 + a.toNat * 0x1000 + b.toNat * 0x80 < 2 ^ 29
  omega
theorem seedfit (d : BitVec 5) (a : BitVec 5) (b : BitVec 5) (n : BitVec 5) : Statement (.seedfit d a b n) := by
  show 0xE400000 + d.toNat * 0x20000 + a.toNat * 0x1000 + b.toNat * 0x80 + n.toNat < 2 ^ 29
  omega
theorem illegalInstruction (cause : Nat) (v : BitVec 64) : Statement (.illegalInstruction cause v) :=
  show 0 < 2 ^ 29 from by decide
theorem unknownCommand (v : BitVec 64) : Statement (.unknownCommand v) :=
  show 0 < 2 ^ 29 from by decide
theorem badPacket (q : Nat) : Statement (.badPacket q) :=
  show 0 < 2 ^ 29 from by decide
theorem powerLoss : Statement .powerLoss := by decide

end Sys2Proof.Laws.OperandBits
end

