-- ==== Sys2Proof/Laws/Traps.lean ====
section
/-!
SUPPORT. What taking a trap changes: the trap registers and the running firing, and nothing else (R43, R50).
-/
namespace Sys2Proof.Machine

/-! ## A firing of a column -/

theorem Column.firing_modFiring_self (c : Column) (b : Nat) (f : Firing → Firing) :
    (c.modFiring b f).firing b = (c.firing b).map f := by
  simp [Column.firing, Column.modFiring]

/-- Registers of every bank are those of the column before. -/
def Column.sameRegs (c d : Column) : Prop :=
  ∀ b m, (d.bank b).readX m = (c.bank b).readX m ∧ (d.bank b).readV m = (c.bank b).readV m ∧
    (d.bank b).readQ m = (c.bank b).readQ m

theorem Column.sameRegs_refl (c : Column) : c.sameRegs c := fun _ _ => ⟨rfl, rfl, rfl⟩

theorem Column.sameRegs_modBank (c : Column) (b : Nat) (f : Bank → Bank)
    (h : ∀ k, (f k).x = k.x ∧ (f k).v = k.v ∧ (f k).q = k.q) : c.sameRegs (c.modBank b f) := by
  intro a m
  by_cases ha : a = b
  · subst ha
    simp [Column.bank_modBank_self, Bank.readX, Bank.readV, Bank.readQ, h]
  · simp [Column.bank_modBank_ne _ _ ha]

theorem Column.sameRegs_trans {c d e : Column} (h : c.sameRegs d) (k : d.sameRegs e) : c.sameRegs e := fun b m =>
  ⟨(k b m).1.trans (h b m).1, (k b m).2.1.trans (h b m).2.1, (k b m).2.2.trans (h b m).2.2⟩

theorem Column.sameRegs_banks {c d : Column} (h : d.banks = c.banks) : c.sameRegs d := by
  intro b m; rw [show d.bank b = c.bank b from congrArg (fun l => sget Bank.empty l b) h]; exact ⟨rfl, rfl, rfl⟩

/-! ## Matrix commands are dropped -/

/-- What commands have still to write changes the local store and its stored errors, nothing else. -/
theorem Column.flushOut_eq (c : Column) (m : MCmd) :
    c.flushOut m = { c with ls := (c.flushOut m).ls, lsFlip := (c.flushOut m).lsFlip } := by
  unfold Column.flushOut
  induction m.out generalizing c with
  | nil => rfl
  | cons w t ih => rw [List.foldl_cons, ih, Column.wrBytes_eq]

theorem Column.flushOuts_eq (c : Column) (l : List MCmd) :
    l.foldl Column.flushOut c = { c with ls := (l.foldl Column.flushOut c).ls, lsFlip := (l.foldl Column.flushOut c).lsFlip } := by
  induction l generalizing c with
  | nil => rfl
  | cons m t ih => rw [List.foldl_cons, ih, Column.flushOut_eq]

/-- A column without a matrix command at work has nothing left to write. -/
theorem Column.dropMatrix_ls_idle (c : Column) (b : Nat) (h : c.mrun = none) : (c.dropMatrix b).ls = c.ls := by
  simp [Column.dropMatrix, h]

theorem Column.dropMatrix_fields (c : Column) (b : Nat) :
    (c.dropMatrix b).running = c.running ∧ (c.dropMatrix b).inTrap = c.inTrap ∧
    (c.dropMatrix b).firing b = c.firing b ∧ c.sameRegs (c.dropMatrix b) := by
  have h : ((c.mrun.toList.filter (fun m => decide (m.band = b) && m.keepsOut)).foldl Column.flushOut c).banks = c.banks := by
    rw [Column.flushOuts_eq]
  refine ⟨?_, ?_, ?_, ?_⟩
  · unfold Column.dropMatrix; rw [Column.flushOuts_eq]; rfl
  · unfold Column.dropMatrix; rw [Column.flushOuts_eq]; rfl
  · simp [Column.dropMatrix, Column.firing, Column.bank, Column.modBank, Column.setBank, h]
  · refine Column.sameRegs_trans ?_ (Column.sameRegs_modBank _ _ _ (fun _ => ⟨rfl, rfl, rfl⟩))
    exact Column.sameRegs_banks h

/-! ## An abort begins -/

theorem Bank.dropAwaits_regs (b : Nat) (k : Bank) :
    (k.dropAwaits b).x = k.x ∧ (k.dropAwaits b).v = k.v ∧ (k.dropAwaits b).q = k.q := ⟨rfl, rfl, rfl⟩

theorem Column.beginAbort_eq (c : Column) (b cause path : Nat) (tval : Word) (pc : Nat) (aw hold : Bool) :
    (c.beginAbort b cause path tval pc aw hold).cause = causeWord cause path ∧
    (c.beginAbort b cause path tval pc aw hold).tval = tval ∧
    (c.beginAbort b cause path tval pc aw hold).tepc = tepcWord pc aw ∧
    (c.beginAbort b cause path tval pc aw hold).running = c.running ∧
    (c.beginAbort b cause path tval pc aw hold).ls = (c.dropMatrix b).ls ∧
    (c.beginAbort b cause path tval pc aw hold).inTrap = (if c.running = some b then false else c.inTrap) ∧
    (c.beginAbort b cause path tval pc aw hold).firing b = (c.firing b).map (fun f =>
      { f with phase := .abort cause path tval (pc % 0x100000) hold, park := none, wait := none, lwait := none,
               deferred := [] }) := by
  obtain ⟨hr, hi, hf, -⟩ := Column.dropMatrix_fields c b
  refine ⟨rfl, rfl, rfl, hr, rfl, ?_, ?_⟩
  · simp only [Column.beginAbort, Column.modFiring_inTrap, Column.modBank_inTrap, Column.modBank_running, hr, hi]
  · rw [Column.beginAbort, Column.firing_modFiring_self]
    congr 1
    rw [← hf]
    by_cases h4 : b = 4
    · subst h4
      simp only [Column.firing, Column.bank, Column.modBank, Column.setBank, sget_sput_self]
      rfl
    · simp only [Column.firing, Column.bank, Column.modBank, Column.setBank, sget_sput_ne _ _ _ h4, sget_sput_self]
      rfl

theorem Column.beginAbort_regs (c : Column) (b cause path : Nat) (tval : Word) (pc : Nat) (aw hold : Bool) :
    c.sameRegs (c.beginAbort b cause path tval pc aw hold) := by
  have h1 := (Column.dropMatrix_fields c b).2.2.2
  have h2 := Column.sameRegs_modBank (c.dropMatrix b) b (Bank.dropAwaits b) (Bank.dropAwaits_regs b)
  have h3 := Column.sameRegs_modBank ((c.dropMatrix b).modBank b (Bank.dropAwaits b)) 4 (Bank.dropAwaits b)
    (Bank.dropAwaits_regs b)
  refine Column.sameRegs_trans (Column.sameRegs_trans (Column.sameRegs_trans h1 h2) h3) ?_
  exact Column.sameRegs_trans (Column.sameRegs_banks rfl) (Column.sameRegs_modBank _ _ _ (fun _ => ⟨rfl, rfl, rfl⟩))

/-- A trap that aborts: outside the trap bank, off the local path. -/
theorem State.takeTrap_abort (s : State) (cause : Nat) (tval : Word) (loc : Bool) (pc : Nat) (aw : Bool)
    (hi : s.me.inTrap = false) (hl : (loc && s.me.tvec.getLsbD 20) = false) :
    s.takeTrap cause tval loc pc aw =
      { s.modMe (fun c => c.beginAbort c.band cause (abortPath cause) tval pc aw true) with last := .trapped } := by
  simp only [State.takeTrap, hi, Bool.false_eq_true, if_false, hl]

/-- A trap in the trap bank (R50). -/
theorem State.takeTrap_inTrap (s : State) (cause : Nat) (tval : Word) (loc : Bool) (pc : Nat) (aw : Bool)
    (hi : s.me.inTrap = true) :
    s.takeTrap cause tval loc pc aw =
      { s.modMe (fun c => c.beginAbort c.band 0x186 1 (w64 cause) pc aw true) with last := .trapped } := by
  simp only [State.takeTrap, hi, if_true]

/-- The local path (R50). -/
theorem State.takeTrap_local (s : State) (cause : Nat) (tval : Word) (loc : Bool) (pc : Nat) (aw : Bool)
    (hi : s.me.inTrap = false) (hl : (loc && s.me.tvec.getLsbD 20) = true) :
    s.takeTrap cause tval loc pc aw =
      { s.modMe (fun c => c.enterTrap cause tval pc aw (s.nextId + 1)) with last := .trapped, nextId := s.nextId + 1 } := by
  simp only [State.takeTrap, hi, Bool.false_eq_true, if_false, hl, if_true]

theorem Column.enterTrap_eq (c : Column) (cause : Nat) (tval : Word) (pc : Nat) (aw : Bool) (n : Nat) :
    (c.enterTrap cause tval pc aw n).cause = causeWord cause 0 ∧ (c.enterTrap cause tval pc aw n).tval = tval ∧
    (c.enterTrap cause tval pc aw n).tepc = tepcWord pc aw ∧ (c.enterTrap cause tval pc aw n).inTrap = true ∧
    (c.enterTrap cause tval pc aw n).cycle = c.cycle + 4 ∧ (c.enterTrap cause tval pc aw n).running = c.running ∧
    (c.enterTrap cause tval pc aw n).tmsg = (c.firing c.band).elim 0 (·.trig) ∧
    (c.enterTrap cause tval pc aw n).ls = c.ls ∧
    (c.enterTrap cause tval pc aw n).firing c.band = (c.firing c.band).map (fun f =>
      { f with pc := fieldW c.tvec 19 0, jump := some 0, last := fieldW c.tvec 19 0, spent := f.spent + 4, trapFrom := n }) := by
  refine ⟨rfl, rfl, rfl, rfl, rfl, rfl, rfl, rfl, ?_⟩
  exact Column.firing_modFiring_self _ _ _

theorem Column.enterTrap_regs (c : Column) (cause : Nat) (tval : Word) (pc : Nat) (aw : Bool) (n : Nat) :
    c.sameRegs (c.enterTrap cause tval pc aw n) := by
  let c0 : Column := { c with cause := causeWord cause 0, tval := tval, tepc := tepcWord pc aw }
  let c1 : Column := { c0.later 4 with tmsg := (c.firing c.band).elim 0 (·.trig), inTrap := true }
  exact Column.sameRegs_modBank c1 c.band _ (fun _ => ⟨rfl, rfl, rfl⟩)

/-! ## The state after a trap -/

theorem State.me_last (s : State) (f : Column → Column) (l : Last) : ({ s.modMe f with last := l } : State).me = f s.me := by
  rw [← State.me_modMe s f]; rfl
/-- A firing that aborts at its group: what the trap registers and the firing hold, and what stays. Memory reads as it
does once the firing's matrix commands have been dropped (R281). -/
theorem State.abort_fields (s : State) (cause path : Nat) (tval : Word) (pc : Nat) (aw : Bool) (f : Firing) (hf : s.fire = some f) :
  let t : State := { s.modMe (fun c => c.beginAbort c.band cause path tval pc aw true) with last := .trapped }
  t.last = .trapped ∧ t.me.cause = causeWord cause path ∧ t.me.tval = tval ∧ t.me.tepc = tepcWord pc aw ∧
  t.fire = some { f with phase := .abort cause path tval (pc % 0x100000) true, park := none, wait := none, lwait := none,
                         deferred := [] } ∧
  (∀ q, q ≠ s.cur → t.col q = s.col q) ∧ (∀ l, t.rd l = (s.modMe (fun c => c.dropMatrix c.band)).rd l) ∧
  s.me.sameRegs t.me ∧ t.me.inTrap = (if s.me.running.isSome then false else s.me.inTrap) := by
  intro t
  have hm : t.me = s.me.beginAbort s.me.band cause path tval pc aw true := State.me_last _ _ _
  obtain ⟨h1, h2, h3, h4, h5, h6, h7⟩ := Column.beginAbort_eq s.me s.me.band cause path tval pc aw true
  refine ⟨rfl, by rw [hm, h1], by rw [hm, h2], by rw [hm, h3], ?_, ?_, ?_, ?_, ?_⟩
  · have hb : t.me.band = s.me.band := by rw [hm]; exact congrArg (fun r => r.getD 0) h4
    have hf' : s.me.firing s.me.band = some f := hf
    rw [State.fire, hb, hm, h7, hf']; rfl
  · intro q hq; exact State.col_modMe_ne s (fun c => c.beginAbort c.band cause path tval pc aw true) hq
  · intro l
    apply State.rd_congr
    · intro p
      by_cases hp : p = s.cur
      · subst hp
        show t.me.ls = (s.modMe (fun c => c.dropMatrix c.band)).me.ls
        rw [hm, h5, State.me_modMe]
      · have ht : t.col p = s.col p := State.col_modMe_ne s (fun c => c.beginAbort c.band cause path tval pc aw true) hp
        rw [ht, State.col_modMe_ne s _ hp]
    · rfl
    · rfl
  · rw [hm]; intro b m; exact Column.beginAbort_regs s.me _ _ _ _ _ _ _ b m
  · rw [hm, h6]
    unfold Column.band
    rcases hr : s.me.running with _ | b <;> simp

end Sys2Proof.Machine
end

