-- ==== Sys2Proof/Tests/Slice0.lean ====
section
/-!
SUPPORT. The model's own tests: words written out field by field from Tables 7-3 and 7-4, one refused term for each check of
WellFormed, results taken from the manual's rules by hand, and for every statement with hypotheses a concrete state and
operands that meet them, clause by clause.
-/
open Sys2Proof Sys2Proof.Machine
namespace Sys2Proof.Tests

set_option Elab.async false

/-! ## Decoding -/

/-- A word from its fields, (width, value), from bit 31 down. -/
def word (fields : List (Nat × Nat)) : BitVec 32 := BitVec.ofNat 32 (fields.foldl (fun w f => w * 2 ^ f.1 + f.2) 0)

/-- Every word decodes to the header and the instruction beside it. -/
def allDecode (l : List (BitVec 32 × Header × Instr)) : Bool :=
  l.all (fun e => match decodeWord e.1 with
    | .ok (h, i) => h == e.2.1 && i == e.2.2
    | .error _ => false)

/-- Table 7-3: control, traps and special registers. -/
theorem test_decode_control : allDecode [
  (word [(2, 0), (1, 0), (29, 0)], ⟨0, false⟩, .nop),
  (word [(2, 1), (1, 0), (29, 4194304)], ⟨1, false⟩, .endFiring),
  (word [(2, 0), (1, 1), (12, 64), (5, 17), (5, 0), (1, 1), (6, 11)], ⟨0, true⟩, .trap 17 1 11),
  (word [(2, 0), (1, 0), (29, 12582912)], ⟨0, false⟩, .tretRetry),
  (word [(2, 1), (1, 0), (29, 12582913)], ⟨1, false⟩, .tretNext),
  (word [(2, 0), (1, 1), (29, 12582914)], ⟨0, true⟩, .tretAbort),
  (word [(2, 0), (1, 0), (12, 128), (5, 17), (5, 0), (7, 4)], ⟨0, false⟩, .snap 17 4),
  (word [(2, 1), (1, 0), (7, 0x05), (5, 9), (5, 0), (12, 256)], ⟨1, false⟩, .sysrd 9 256),
  (word [(2, 0), (1, 1), (7, 0x06), (5, 9), (5, 0), (12, 7)], ⟨0, true⟩, .syswr 9 7),
  (word [(2, 0), (1, 0), (7, 0x08), (5, 17), (5, 22), (12, 2643)], ⟨0, false⟩, .beq 17 22 2643),
  (word [(2, 1), (1, 0), (7, 0x09), (5, 17), (5, 22), (12, 2643)], ⟨1, false⟩, .bne 17 22 2643),
  (word [(2, 0), (1, 1), (7, 0x0A), (5, 17), (5, 22), (12, 2643)], ⟨0, true⟩, .blt 17 22 2643),
  (word [(2, 0), (1, 0), (7, 0x0B), (5, 17), (5, 22), (12, 2643)], ⟨0, false⟩, .bge 17 22 2643),
  (word [(2, 1), (1, 0), (7, 0x0C), (5, 17), (5, 22), (12, 2643)], ⟨1, false⟩, .bltu 17 22 2643),
  (word [(2, 0), (1, 1), (7, 0x0D), (5, 17), (5, 22), (12, 2643)], ⟨0, true⟩, .bgeu 17 22 2643),
  (word [(2, 0), (1, 0), (7, 0x0E), (22, 2774442)], ⟨0, false⟩, .jal 2774442),
  (word [(2, 1), (1, 0), (7, 0x0F), (5, 9), (5, 17), (12, 2289)], ⟨1, false⟩, .jalr 9 17 2289),
  (word [(2, 0), (1, 1), (12, 512), (5, 17), (12, 2289)], ⟨0, true⟩, .loop 17 2289)] = true := by decide +kernel

/-- Table 7-3: loads and stores. -/
theorem test_decode_loads_stores : allDecode [
  (word [(2, 0), (1, 0), (7, 0x11), (5, 9), (5, 17), (12, 2289)], ⟨0, false⟩, .ldch 9 17 2289),
  (word [(2, 1), (1, 0), (7, 0x12), (5, 9), (5, 17), (12, 2289)], ⟨1, false⟩, .ldB 9 17 2289),
  (word [(2, 0), (1, 1), (7, 0x13), (5, 9), (5, 17), (12, 2289)], ⟨0, true⟩, .ldH 9 17 2289),
  (word [(2, 0), (1, 0), (7, 0x14), (5, 9), (5, 17), (12, 2289)], ⟨0, false⟩, .ldW 9 17 2289),
  (word [(2, 1), (1, 0), (7, 0x15), (5, 9), (5, 17), (12, 2289)], ⟨1, false⟩, .ldD 9 17 2289),
  (word [(2, 0), (1, 1), (7, 0x16), (5, 9), (5, 17), (12, 2289)], ⟨0, true⟩, .lduB 9 17 2289),
  (word [(2, 0), (1, 0), (7, 0x17), (5, 9), (5, 17), (12, 2289)], ⟨0, false⟩, .lduH 9 17 2289),
  (word [(2, 1), (1, 0), (7, 0x18), (5, 9), (5, 17), (12, 2289)], ⟨1, false⟩, .lduW 9 17 2289),
  (word [(2, 0), (1, 1), (7, 0x19), (5, 9), (5, 17), (12, 2289)], ⟨0, true⟩, .ldfF32 9 17 2289),
  (word [(2, 0), (1, 0), (7, 0x1A), (5, 9), (5, 17), (12, 2289)], ⟨0, false⟩, .ldfBf16 9 17 2289),
  (word [(2, 1), (1, 0), (7, 0x1B), (5, 9), (5, 17), (12, 2289)], ⟨1, false⟩, .stB 9 17 2289),
  (word [(2, 0), (1, 1), (7, 0x1C), (5, 9), (5, 17), (12, 2289)], ⟨0, true⟩, .stH 9 17 2289),
  (word [(2, 0), (1, 0), (7, 0x1D), (5, 9), (5, 17), (12, 2289)], ⟨0, false⟩, .stW 9 17 2289),
  (word [(2, 1), (1, 0), (7, 0x1E), (5, 9), (5, 17), (12, 2289)], ⟨1, false⟩, .stD 9 17 2289),
  (word [(2, 0), (1, 1), (7, 0x1F), (5, 9), (5, 17), (12, 2289)], ⟨0, true⟩, .stfF32 9 17 2289),
  (word [(2, 0), (1, 0), (7, 0x20), (5, 9), (5, 17), (12, 2289)], ⟨0, false⟩, .stfBf16 9 17 2289),
  (word [(2, 1), (1, 0), (7, 0x21), (5, 9), (5, 17), (5, 22), (3, 0), (4, 3)], ⟨1, false⟩, .vld 9 17 22 0 3),
  (word [(2, 0), (1, 1), (7, 0x22), (5, 9), (5, 17), (5, 22), (3, 5), (4, 8)], ⟨0, true⟩, .vst 9 17 22 5 8),
  (word [(2, 0), (1, 0), (7, 0x23), (5, 9), (5, 17), (5, 22), (3, 1), (4, 4)], ⟨0, false⟩, .vlds 9 17 22 1 4),
  (word [(2, 1), (1, 0), (7, 0x24), (5, 9), (5, 17), (5, 22), (3, 5), (4, 9)], ⟨1, false⟩, .vsts 9 17 22 5 9),
  (word [(2, 0), (1, 1), (7, 0x25), (5, 9), (5, 17), (5, 22), (3, 2), (4, 5)], ⟨0, true⟩, .vgath 9 17 22 2 5),
  (word [(2, 0), (1, 0), (7, 0x26), (5, 9), (5, 17), (5, 22), (3, 5), (4, 10)], ⟨0, false⟩, .vscat 9 17 22 5 10)] = true := by decide +kernel

/-- Table 7-3: atomics, fences, addresses. -/
theorem test_decode_atomics_addresses : allDecode [
  (word [(2, 1), (1, 0), (7, 0x27), (5, 9), (5, 17), (5, 22), (4, 2), (3, 0)], ⟨1, false⟩, .amoAdd 9 17 22 2),
  (word [(2, 0), (1, 1), (7, 0x27), (5, 9), (5, 17), (5, 22), (4, 3), (3, 1)], ⟨0, true⟩, .amoAnd 9 17 22 3),
  (word [(2, 0), (1, 0), (7, 0x27), (5, 9), (5, 17), (5, 22), (4, 4), (3, 2)], ⟨0, false⟩, .amoOr 9 17 22 4),
  (word [(2, 1), (1, 0), (7, 0x27), (5, 9), (5, 17), (5, 22), (4, 5), (3, 3)], ⟨1, false⟩, .amoXor 9 17 22 5),
  (word [(2, 0), (1, 1), (7, 0x27), (5, 9), (5, 17), (5, 22), (4, 6), (3, 4)], ⟨0, true⟩, .amoMin 9 17 22 6),
  (word [(2, 0), (1, 0), (7, 0x27), (5, 9), (5, 17), (5, 22), (4, 7), (3, 5)], ⟨0, false⟩, .amoMax 9 17 22 7),
  (word [(2, 1), (1, 0), (7, 0x27), (5, 9), (5, 17), (5, 22), (4, 8), (3, 6)], ⟨1, false⟩, .amoSwap 9 17 22 8),
  (word [(2, 0), (1, 1), (7, 0x27), (5, 9), (5, 17), (5, 22), (4, 9), (3, 7)], ⟨0, true⟩, .amoCas 9 17 22 9),
  (word [(2, 0), (1, 0), (23, 2621440), (1, 1), (1, 0), (1, 1), (3, 0)], ⟨0, false⟩, .fence 1 0 1 0),
  (word [(2, 1), (1, 0), (26, 21495808), (3, 7)], ⟨1, false⟩, .lfence 7),
  (word [(2, 0), (1, 1), (7, 0x2A), (5, 9), (5, 17), (12, 0)], ⟨0, true⟩, .acvtOff 9 17),
  (word [(2, 0), (1, 0), (7, 0x2A), (5, 9), (5, 17), (12, 1)], ⟨0, false⟩, .acvtG 9 17),
  (word [(2, 1), (1, 0), (7, 0x2A), (5, 9), (5, 17), (12, 2)], ⟨1, false⟩, .acvtL 9 17),
  (word [(2, 0), (1, 1), (7, 0x2A), (5, 9), (5, 17), (12, 3)], ⟨0, true⟩, .acvtC 9 17),
  (word [(2, 0), (1, 0), (7, 0x2A), (5, 9), (5, 17), (12, 4)], ⟨0, false⟩, .acvtLc 9 17),
  (word [(2, 1), (1, 0), (7, 0x2A), (5, 9), (5, 17), (12, 5)], ⟨1, false⟩, .acvtCl 9 17),
  (word [(2, 0), (1, 1), (7, 0x2B), (5, 9), (5, 17), (12, 0)], ⟨0, true⟩, .atest 9 17)] = true := by decide +kernel

/-- Table 7-3: channels, bells, waits. -/
theorem test_decode_channels_waits : allDecode [
  (word [(2, 0), (1, 0), (7, 0x30), (5, 9), (10, 0), (7, 4)], ⟨0, false⟩, .recv 9 4),
  (word [(2, 1), (1, 0), (7, 0x31), (5, 9), (10, 0), (7, 4)], ⟨1, false⟩, .send 9 4),
  (word [(2, 0), (1, 1), (7, 0x32), (5, 9), (6, 0), (4, 3), (7, 4)], ⟨0, true⟩, .peek 9 3 4),
  (word [(2, 0), (1, 0), (7, 0x33), (5, 9), (10, 0), (7, 4)], ⟨0, false⟩, .chst 9 4),
  (word [(2, 1), (1, 0), (24, 6815744), (5, 7)], ⟨1, false⟩, .bella 7),
  (word [(2, 0), (1, 1), (7, 0x35), (5, 9), (12, 0), (5, 7)], ⟨0, true⟩, .bellw 9 7),
  (word [(2, 0), (1, 0), (7, 0x36), (5, 9), (12, 0), (5, 7)], ⟨0, false⟩, .bellt 9 7),
  (word [(2, 1), (1, 0), (7, 0x37), (5, 9), (5, 17), (5, 22), (3, 0), (4, 0)], ⟨1, false⟩, .pbarr 9 17 22 0),
  (word [(2, 0), (1, 1), (7, 0x38), (5, 9), (5, 17), (5, 22), (3, 0), (4, 0)], ⟨0, true⟩, .pbwait 9 17 22 0),
  (word [(2, 0), (1, 0), (7, 0x39), (5, 9), (5, 17), (5, 22), (2, 2), (1, 1), (4, 4)], ⟨0, false⟩, .mwait 9 17 22 2 1 4)] = true := by decide +kernel

/-- Table 7-3: engine commands. -/
theorem test_decode_engines : allDecode [
  (word [(2, 1), (1, 0), (7, 0x40), (5, 9), (5, 17), (5, 22), (3, 0), (3, 0), (1, 0)], ⟨1, false⟩, .cpy 9 17 22 0),
  (word [(2, 0), (1, 1), (7, 0x40), (5, 9), (5, 17), (5, 22), (3, 0), (3, 0), (1, 1)], ⟨0, true⟩, .cpyS 9 17 22 0),
  (word [(2, 0), (1, 0), (12, 2080), (5, 17), (8, 0), (4, 11)], ⟨0, false⟩, .ctarm 17 11),
  (word [(2, 1), (1, 0), (25, 17039361), (4, 11)], ⟨1, false⟩, .ctarmOff 11),
  (word [(2, 0), (1, 1), (7, 0x42), (5, 9), (5, 17), (12, 0)], ⟨0, true⟩, .lswap 9 17),
  (word [(2, 0), (1, 0), (7, 0x43), (5, 9), (5, 17), (5, 22), (4, 0), (3, 1)], ⟨0, false⟩, .kvapp 9 17 22 1),
  (word [(2, 1), (1, 0), (12, 2176), (5, 17), (5, 22), (7, 0)], ⟨1, false⟩, .ktbfill 17 22),
  (word [(2, 0), (1, 1), (12, 2208), (5, 17), (12, 0)], ⟨0, true⟩, .ktbinvOne 17),
  (word [(2, 0), (1, 0), (12, 2208), (5, 17), (12, 1)], ⟨0, false⟩, .ktbinvSeq 17),
  (word [(2, 1), (1, 0), (29, 289406978)], ⟨1, false⟩, .ktbinvAll),
  (word [(2, 0), (1, 1), (7, 0x46), (5, 9), (17, 0)], ⟨0, true⟩, .flpop 9),
  (word [(2, 0), (1, 0), (7, 0x47), (5, 9), (5, 17), (12, 0)], ⟨0, false⟩, .flpush 9 17),
  (word [(2, 1), (1, 0), (7, 0x48), (5, 9), (5, 17), (5, 22), (7, 0)], ⟨1, false⟩, .ssld 9 17 22),
  (word [(2, 0), (1, 1), (7, 0x49), (5, 9), (5, 17), (5, 22), (6, 0), (1, 1)], ⟨0, true⟩, .ssst 9 17 22 1),
  (word [(2, 0), (1, 0), (7, 0x4A), (5, 9), (5, 0), (5, 22), (7, 0)], ⟨0, false⟩, .ssnap 9 22),
  (word [(2, 1), (1, 0), (7, 0x4B), (5, 9), (5, 0), (5, 22), (7, 0)], ⟨1, false⟩, .ssroll 9 22),
  (word [(2, 0), (1, 1), (7, 0x4C), (5, 9), (5, 17), (5, 22), (7, 0)], ⟨0, true⟩, .ssfork 9 17 22),
  (word [(2, 0), (1, 0), (7, 0x4D), (5, 9), (5, 0), (5, 22), (7, 0)], ⟨0, false⟩, .ssdrop 9 22)] = true := by decide +kernel

/-- Table 7-4: scalar integer. -/
theorem test_decode_scalar_integer : allDecode [
  (word [(2, 3), (1, 0), (7, 0x00), (5, 9), (5, 17), (5, 22), (7, 0)], ⟨3, false⟩, .add 9 17 22),
  (word [(2, 2), (1, 1), (7, 0x00), (5, 9), (5, 17), (5, 22), (7, 1)], ⟨2, true⟩, .sub 9 17 22),
  (word [(2, 2), (1, 0), (7, 0x00), (5, 9), (5, 17), (5, 22), (7, 2)], ⟨2, false⟩, .and 9 17 22),
  (word [(2, 3), (1, 0), (7, 0x00), (5, 9), (5, 17), (5, 22), (7, 3)], ⟨3, false⟩, .or 9 17 22),
  (word [(2, 2), (1, 1), (7, 0x00), (5, 9), (5, 17), (5, 22), (7, 4)], ⟨2, true⟩, .xor 9 17 22),
  (word [(2, 2), (1, 0), (7, 0x00), (5, 9), (5, 17), (5, 22), (7, 5)], ⟨2, false⟩, .shl 9 17 22),
  (word [(2, 3), (1, 0), (7, 0x00), (5, 9), (5, 17), (5, 22), (7, 6)], ⟨3, false⟩, .shr 9 17 22),
  (word [(2, 2), (1, 1), (7, 0x00), (5, 9), (5, 17), (5, 22), (7, 7)], ⟨2, true⟩, .sar 9 17 22),
  (word [(2, 2), (1, 0), (7, 0x00), (5, 9), (5, 17), (5, 22), (7, 8)], ⟨2, false⟩, .slt 9 17 22),
  (word [(2, 3), (1, 0), (7, 0x00), (5, 9), (5, 17), (5, 22), (7, 9)], ⟨3, false⟩, .sltu 9 17 22),
  (word [(2, 2), (1, 1), (7, 0x00), (5, 9), (5, 17), (5, 22), (7, 10)], ⟨2, true⟩, .min 9 17 22),
  (word [(2, 2), (1, 0), (7, 0x00), (5, 9), (5, 17), (5, 22), (7, 11)], ⟨2, false⟩, .max 9 17 22),
  (word [(2, 3), (1, 0), (7, 0x00), (5, 9), (5, 17), (5, 22), (7, 12)], ⟨3, false⟩, .minu 9 17 22),
  (word [(2, 2), (1, 1), (7, 0x00), (5, 9), (5, 17), (5, 22), (7, 13)], ⟨2, true⟩, .maxu 9 17 22),
  (word [(2, 2), (1, 0), (7, 0x00), (5, 9), (5, 17), (12, 14)], ⟨2, false⟩, .clz 9 17),
  (word [(2, 3), (1, 0), (7, 0x00), (5, 9), (5, 17), (12, 15)], ⟨3, false⟩, .popc 9 17),
  (word [(2, 2), (1, 1), (7, 0x00), (5, 9), (5, 17), (5, 22), (7, 16)], ⟨2, true⟩, .andn 9 17 22),
  (word [(2, 2), (1, 0), (7, 0x01), (5, 9), (5, 17), (12, 2289)], ⟨2, false⟩, .addi 9 17 2289),
  (word [(2, 3), (1, 0), (7, 0x02), (5, 9), (5, 17), (12, 2289)], ⟨3, false⟩, .andi 9 17 2289),
  (word [(2, 2), (1, 1), (7, 0x03), (5, 9), (5, 17), (12, 2289)], ⟨2, true⟩, .ori 9 17 2289),
  (word [(2, 2), (1, 0), (7, 0x04), (5, 9), (5, 17), (12, 2289)], ⟨2, false⟩, .xori 9 17 2289),
  (word [(2, 3), (1, 0), (7, 0x05), (5, 9), (5, 17), (6, 0), (6, 37)], ⟨3, false⟩, .shli 9 17 37),
  (word [(2, 2), (1, 1), (7, 0x06), (5, 9), (5, 17), (6, 0), (6, 37)], ⟨2, true⟩, .shri 9 17 37),
  (word [(2, 2), (1, 0), (7, 0x07), (5, 9), (5, 17), (6, 0), (6, 37)], ⟨2, false⟩, .sari 9 17 37),
  (word [(2, 3), (1, 0), (7, 0x08), (5, 9), (5, 17), (12, 2289)], ⟨3, false⟩, .slti 9 17 2289),
  (word [(2, 2), (1, 1), (7, 0x09), (5, 9), (5, 17), (12, 2289)], ⟨2, true⟩, .sltiu 9 17 2289),
  (word [(2, 2), (1, 0), (7, 0x0A), (5, 9), (5, 17), (5, 22), (7, 0)], ⟨2, false⟩, .mul 9 17 22),
  (word [(2, 3), (1, 0), (7, 0x0A), (5, 9), (5, 17), (5, 22), (7, 1)], ⟨3, false⟩, .mulhs 9 17 22),
  (word [(2, 2), (1, 1), (7, 0x0A), (5, 9), (5, 17), (5, 22), (7, 2)], ⟨2, true⟩, .mulhu 9 17 22),
  (word [(2, 2), (1, 0), (7, 0x0A), (5, 9), (5, 17), (5, 22), (7, 3)], ⟨2, false⟩, .mulhm 9 17 22),
  (word [(2, 3), (1, 0), (7, 0x0A), (5, 9), (5, 17), (5, 22), (7, 4)], ⟨3, false⟩, .mul32s 9 17 22),
  (word [(2, 2), (1, 1), (7, 0x0B), (5, 9), (5, 17), (5, 22), (7, 0)], ⟨2, true⟩, .divs 9 17 22),
  (word [(2, 2), (1, 0), (7, 0x0B), (5, 9), (5, 17), (5, 22), (7, 1)], ⟨2, false⟩, .divu 9 17 22),
  (word [(2, 3), (1, 0), (7, 0x0B), (5, 9), (5, 17), (5, 22), (7, 2)], ⟨3, false⟩, .rems 9 17 22),
  (word [(2, 2), (1, 1), (7, 0x0B), (5, 9), (5, 17), (5, 22), (7, 3)], ⟨2, true⟩, .remu 9 17 22),
  (word [(2, 2), (1, 0), (7, 0x0C), (5, 9), (17, 88666)], ⟨2, false⟩, .li 9 88666),
  (word [(2, 3), (1, 0), (7, 0x0D), (5, 9), (17, 88666)], ⟨3, false⟩, .lis 9 88666)] = true := by decide +kernel

/-- Table 7-4: scalar floating point. -/
theorem test_decode_scalar_float : allDecode [
  (word [(2, 2), (1, 1), (7, 0x10), (5, 9), (5, 17), (5, 22), (3, 2), (4, 0)], ⟨2, true⟩, .fadd 9 17 22 2),
  (word [(2, 2), (1, 0), (7, 0x10), (5, 9), (5, 17), (5, 22), (3, 2), (4, 1)], ⟨2, false⟩, .fsub 9 17 22 2),
  (word [(2, 3), (1, 0), (7, 0x10), (5, 9), (5, 17), (5, 22), (3, 2), (4, 2)], ⟨3, false⟩, .fmul 9 17 22 2),
  (word [(2, 2), (1, 1), (7, 0x10), (5, 9), (5, 17), (5, 22), (3, 2), (4, 3)], ⟨2, true⟩, .fdiv 9 17 22 2),
  (word [(2, 2), (1, 0), (7, 0x10), (5, 9), (5, 17), (5, 0), (3, 2), (4, 4)], ⟨2, false⟩, .fsqrt 9 17 2),
  (word [(2, 3), (1, 0), (7, 0x10), (5, 9), (5, 17), (5, 22), (7, 5)], ⟨3, false⟩, .fmin 9 17 22),
  (word [(2, 2), (1, 1), (7, 0x10), (5, 9), (5, 17), (5, 22), (7, 6)], ⟨2, true⟩, .fmax 9 17 22),
  (word [(2, 2), (1, 0), (7, 0x10), (5, 9), (5, 17), (12, 7)], ⟨2, false⟩, .fabs 9 17),
  (word [(2, 3), (1, 0), (7, 0x10), (5, 9), (5, 17), (12, 8)], ⟨3, false⟩, .fneg 9 17),
  (word [(2, 2), (1, 1), (7, 0x11), (5, 9), (5, 17), (5, 22), (3, 2), (4, 0)], ⟨2, true⟩, .fmadd 9 17 22 2),
  (word [(2, 2), (1, 0), (7, 0x11), (5, 9), (5, 17), (5, 22), (3, 2), (4, 1)], ⟨2, false⟩, .fmsub 9 17 22 2),
  (word [(2, 3), (1, 0), (7, 0x11), (5, 9), (5, 17), (5, 22), (3, 2), (4, 2)], ⟨3, false⟩, .fnmadd 9 17 22 2),
  (word [(2, 2), (1, 1), (7, 0x11), (5, 9), (5, 17), (5, 22), (3, 2), (4, 3)], ⟨2, true⟩, .fnmsub 9 17 22 2),
  (word [(2, 2), (1, 0), (7, 0x12), (5, 9), (5, 17), (5, 22), (4, 0), (3, 4)], ⟨2, false⟩, .fcmp 9 17 22 4),
  (word [(2, 3), (1, 0), (7, 0x13), (5, 9), (5, 17), (5, 0), (3, 2), (1, 0), (3, 0)], ⟨3, false⟩, .fcvtF32L 9 17 2 0),
  (word [(2, 2), (1, 1), (7, 0x13), (5, 9), (5, 17), (5, 0), (3, 2), (1, 0), (3, 1)], ⟨2, true⟩, .fcvtF32Lu 9 17 2 0),
  (word [(2, 2), (1, 0), (7, 0x13), (5, 9), (5, 17), (5, 0), (3, 2), (4, 2)], ⟨2, false⟩, .fcvtLF32 9 17 2),
  (word [(2, 3), (1, 0), (7, 0x13), (5, 9), (5, 17), (5, 0), (3, 2), (4, 3)], ⟨3, false⟩, .fcvtLuF32 9 17 2),
  (word [(2, 2), (1, 1), (7, 0x13), (5, 9), (5, 17), (5, 0), (3, 2), (4, 4)], ⟨2, true⟩, .fcvtWF32 9 17 2),
  (word [(2, 2), (1, 0), (7, 0x13), (5, 9), (5, 17), (5, 0), (3, 2), (1, 0), (3, 5)], ⟨2, false⟩, .fcvtBf16F32 9 17 2 0),
  (word [(2, 3), (1, 0), (7, 0x13), (5, 9), (5, 17), (12, 6)], ⟨3, false⟩, .fcvtF32Bf16 9 17)] = true := by decide +kernel

/-- Table 7-4: vector integer. -/
theorem test_decode_vector_integer : allDecode [
  (word [(2, 2), (1, 1), (7, 0x20), (5, 9), (5, 17), (5, 22), (3, 0), (4, 0)], ⟨2, true⟩, .vadd 9 17 22 0),
  (word [(2, 2), (1, 0), (7, 0x20), (5, 9), (5, 17), (5, 22), (3, 1), (4, 1)], ⟨2, false⟩, .vsub 9 17 22 1),
  (word [(2, 3), (1, 0), (7, 0x20), (5, 9), (5, 17), (5, 22), (3, 2), (4, 2)], ⟨3, false⟩, .vadds 9 17 22 2),
  (word [(2, 2), (1, 1), (7, 0x20), (5, 9), (5, 17), (5, 22), (3, 0), (4, 3)], ⟨2, true⟩, .vsubs 9 17 22 0),
  (word [(2, 2), (1, 0), (7, 0x20), (5, 9), (5, 17), (5, 22), (3, 1), (4, 4)], ⟨2, false⟩, .vmul 9 17 22 1),
  (word [(2, 3), (1, 0), (7, 0x20), (5, 9), (5, 17), (5, 22), (3, 2), (4, 5)], ⟨3, false⟩, .vmulh 9 17 22 2),
  (word [(2, 2), (1, 1), (7, 0x20), (5, 9), (5, 17), (5, 22), (3, 0), (4, 6)], ⟨2, true⟩, .vmin 9 17 22 0),
  (word [(2, 2), (1, 0), (7, 0x20), (5, 9), (5, 17), (5, 22), (3, 1), (4, 7)], ⟨2, false⟩, .vmax 9 17 22 1),
  (word [(2, 3), (1, 0), (7, 0x20), (5, 9), (5, 17), (5, 22), (3, 2), (4, 8)], ⟨3, false⟩, .vand 9 17 22 2),
  (word [(2, 2), (1, 1), (7, 0x20), (5, 9), (5, 17), (5, 22), (3, 0), (4, 9)], ⟨2, true⟩, .vor 9 17 22 0),
  (word [(2, 2), (1, 0), (7, 0x20), (5, 9), (5, 17), (5, 22), (3, 1), (4, 10)], ⟨2, false⟩, .vxor 9 17 22 1),
  (word [(2, 3), (1, 0), (7, 0x20), (5, 9), (5, 17), (5, 22), (3, 2), (4, 11)], ⟨3, false⟩, .vshl 9 17 22 2),
  (word [(2, 2), (1, 1), (7, 0x20), (5, 9), (5, 17), (5, 22), (3, 0), (4, 12)], ⟨2, true⟩, .vshr 9 17 22 0),
  (word [(2, 2), (1, 0), (7, 0x20), (5, 9), (5, 17), (5, 22), (3, 1), (4, 13)], ⟨2, false⟩, .vsar 9 17 22 1),
  (word [(2, 3), (1, 0), (7, 0x20), (5, 9), (5, 17), (5, 0), (3, 2), (4, 14)], ⟨3, false⟩, .vabs 9 17 2)] = true := by decide +kernel

/-- Table 7-4: vector floating point. -/
theorem test_decode_vector_float : allDecode [
  (word [(2, 2), (1, 1), (7, 0x21), (5, 9), (5, 17), (5, 22), (3, 6), (4, 0)], ⟨2, true⟩, .vfadd 9 17 22 6),
  (word [(2, 2), (1, 0), (7, 0x21), (5, 9), (5, 17), (5, 22), (3, 6), (4, 1)], ⟨2, false⟩, .vfsub 9 17 22 6),
  (word [(2, 3), (1, 0), (7, 0x21), (5, 9), (5, 17), (5, 22), (3, 6), (4, 2)], ⟨3, false⟩, .vfmul 9 17 22 6),
  (word [(2, 2), (1, 1), (7, 0x21), (5, 9), (5, 17), (5, 22), (3, 5), (4, 3)], ⟨2, true⟩, .vfdiv 9 17 22 5),
  (word [(2, 2), (1, 0), (7, 0x21), (5, 9), (5, 17), (5, 0), (3, 6), (4, 4)], ⟨2, false⟩, .vfsqrt 9 17 6),
  (word [(2, 3), (1, 0), (7, 0x21), (5, 9), (5, 17), (5, 22), (3, 6), (4, 5)], ⟨3, false⟩, .vfmin 9 17 22 6),
  (word [(2, 2), (1, 1), (7, 0x21), (5, 9), (5, 17), (5, 22), (3, 5), (4, 6)], ⟨2, true⟩, .vfmax 9 17 22 5),
  (word [(2, 2), (1, 0), (7, 0x21), (5, 9), (5, 17), (5, 0), (3, 6), (4, 7)], ⟨2, false⟩, .vfabs 9 17 6),
  (word [(2, 3), (1, 0), (7, 0x21), (5, 9), (5, 17), (5, 0), (3, 5), (4, 8)], ⟨3, false⟩, .vfneg 9 17 5),
  (word [(2, 2), (1, 1), (7, 0x22), (5, 9), (5, 17), (5, 22), (3, 6), (4, 0)], ⟨2, true⟩, .vfmadd 9 17 22 6),
  (word [(2, 2), (1, 0), (7, 0x22), (5, 9), (5, 17), (5, 22), (3, 5), (4, 1)], ⟨2, false⟩, .vfmsub 9 17 22 5),
  (word [(2, 3), (1, 0), (7, 0x22), (5, 9), (5, 17), (5, 22), (3, 6), (4, 2)], ⟨3, false⟩, .vfnmadd 9 17 22 6),
  (word [(2, 2), (1, 1), (7, 0x22), (5, 9), (5, 17), (5, 22), (3, 5), (4, 3)], ⟨2, true⟩, .vfnmsub 9 17 22 5)] = true := by decide +kernel

/-- Table 7-4: masks, moves, functions, reductions. -/
theorem test_decode_vector_masks : allDecode [
  (word [(2, 2), (1, 0), (9, 140), (3, 3), (5, 17), (5, 22), (3, 2), (1, 0), (3, 4)], ⟨2, false⟩, .vcmp 3 17 22 2 4),
  (word [(2, 3), (1, 0), (9, 140), (3, 3), (2, 0), (3, 5), (2, 0), (3, 0), (7, 8)], ⟨3, false⟩, .qand 3 5 0),
  (word [(2, 2), (1, 1), (9, 140), (3, 3), (2, 0), (3, 5), (2, 0), (3, 0), (7, 9)], ⟨2, true⟩, .qor 3 5 0),
  (word [(2, 2), (1, 0), (9, 140), (3, 3), (2, 0), (3, 5), (2, 0), (3, 0), (7, 10)], ⟨2, false⟩, .qxor 3 5 0),
  (word [(2, 3), (1, 0), (9, 140), (3, 3), (2, 0), (3, 5), (2, 0), (3, 0), (7, 11)], ⟨3, false⟩, .qandn 3 5 0),
  (word [(2, 2), (1, 1), (9, 140), (3, 3), (5, 17), (12, 12)], ⟨2, true⟩, .qsetx 3 17),
  (word [(2, 2), (1, 0), (7, 0x23), (5, 9), (2, 0), (3, 5), (12, 13)], ⟨2, false⟩, .qgetx 9 5),
  (word [(2, 3), (1, 0), (7, 0x24), (5, 9), (5, 17), (5, 22), (3, 2), (1, 0), (3, 3)], ⟨3, false⟩, .vsel 9 17 22 2 3),
  (word [(2, 2), (1, 1), (7, 0x25), (5, 9), (5, 17), (5, 0), (3, 2), (4, 0)], ⟨2, true⟩, .vbcastX 9 17 2),
  (word [(2, 2), (1, 0), (7, 0x25), (5, 9), (5, 17), (5, 22), (3, 2), (4, 1)], ⟨2, false⟩, .vbcastLane 9 17 22 2),
  (word [(2, 3), (1, 0), (7, 0x26), (5, 9), (5, 17), (5, 22), (3, 2), (4, 0)], ⟨3, false⟩, .vperm 9 17 22 2),
  (word [(2, 2), (1, 1), (7, 0x27), (5, 9), (5, 17), (5, 0), (3, 6), (4, 0)], ⟨2, true⟩, .vexp2 9 17 6),
  (word [(2, 2), (1, 0), (7, 0x27), (5, 9), (5, 17), (5, 0), (3, 6), (4, 1)], ⟨2, false⟩, .vrcp 9 17 6),
  (word [(2, 3), (1, 0), (7, 0x27), (5, 9), (5, 17), (5, 0), (3, 5), (4, 2)], ⟨3, false⟩, .vrsq 9 17 5),
  (word [(2, 2), (1, 1), (7, 0x28), (5, 9), (5, 17), (2, 0), (3, 3), (3, 2), (4, 0)], ⟨2, true⟩, .vredAdd 9 17 3 2),
  (word [(2, 2), (1, 0), (7, 0x28), (5, 9), (5, 17), (2, 0), (3, 3), (3, 2), (4, 1)], ⟨2, false⟩, .vredMax 9 17 3 2),
  (word [(2, 3), (1, 0), (7, 0x28), (5, 9), (5, 17), (2, 0), (3, 3), (3, 2), (4, 2)], ⟨3, false⟩, .vredMin 9 17 3 2),
  (word [(2, 2), (1, 1), (7, 0x28), (5, 9), (5, 17), (2, 0), (3, 3), (3, 2), (4, 3)], ⟨2, true⟩, .vredMaxi 9 17 3 2),
  (word [(2, 2), (1, 0), (7, 0x28), (5, 9), (5, 17), (5, 22), (3, 2), (4, 4)], ⟨2, false⟩, .vxtr 9 17 22 2),
  (word [(2, 3), (1, 0), (7, 0x28), (5, 9), (7, 0), (3, 3), (3, 2), (4, 5)], ⟨3, false⟩, .vpopq 9 3 2)] = true := by decide +kernel

/-- Table 7-4: sums, scans, Hadamard, conversion. -/
theorem test_decode_vector_sums : allDecode [
  (word [(2, 2), (1, 1), (7, 0x29), (5, 8), (5, 17), (2, 0), (3, 3), (7, 0)], ⟨2, true⟩, .vsumkAcc 8 17 3),
  (word [(2, 2), (1, 0), (7, 0x29), (5, 8), (5, 17), (2, 0), (3, 3), (7, 1)], ⟨2, false⟩, .vsumkScale 8 17 3),
  (word [(2, 3), (1, 0), (7, 0x29), (5, 8), (7, 0), (3, 3), (7, 2)], ⟨3, false⟩, .vsumkFold 8 3),
  (word [(2, 2), (1, 1), (7, 0x29), (5, 8), (7, 0), (3, 3), (7, 3)], ⟨2, true⟩, .vsumkFin 8 3),
  (word [(2, 2), (1, 0), (7, 0x2A), (5, 9), (5, 17), (2, 0), (3, 3), (3, 2), (1, 0), (1, 0), (2, 2)], ⟨2, false⟩, .vscan 9 17 3 2 0 2),
  (word [(2, 3), (1, 0), (7, 0x2B), (5, 9), (5, 17), (5, 3), (3, 2), (4, 0)], ⟨3, false⟩, .vhad 9 17 3 2),
  (word [(2, 2), (1, 1), (7, 0x2C), (5, 9), (5, 17), (5, 3), (3, 2), (1, 0), (3, 2)], ⟨2, true⟩, .vcvt 9 17 3 2 0 2)] = true := by decide +kernel

/-- Table 7-4: matrix. -/
theorem test_decode_matrix : allDecode [
  (word [(2, 2), (1, 0), (7, 0x30), (3, 4), (18, 0), (1, 0)], ⟨2, false⟩, .mzero 4 0),
  (word [(2, 3), (1, 0), (7, 0x31), (3, 4), (5, 17), (5, 22), (7, 0), (2, 0)], ⟨3, false⟩, .mma 4 17 22 0),
  (word [(2, 2), (1, 1), (7, 0x32), (3, 4), (5, 17), (5, 22), (7, 0), (2, 0)], ⟨2, true⟩, .mmag 4 17 22 0),
  (word [(2, 2), (1, 0), (7, 0x33), (3, 4), (19, 0)], ⟨2, false⟩, .mprom 4),
  (word [(2, 3), (1, 0), (7, 0x34), (3, 4), (5, 19), (5, 22), (9, 0)], ⟨3, false⟩, .mrdW 4 19 22),
  (word [(2, 2), (1, 1), (7, 0x34), (3, 4), (5, 19), (5, 22), (2, 0), (1, 0), (3, 2), (3, 1)], ⟨2, true⟩, .mrdF32 4 19 22 0 2),
  (word [(2, 2), (1, 0), (7, 0x34), (3, 4), (5, 19), (5, 22), (2, 0), (1, 0), (3, 2), (3, 2)], ⟨2, false⟩, .mrdBf16 4 19 22 0 2),
  (word [(2, 3), (1, 0), (7, 0x34), (3, 4), (5, 19), (5, 22), (9, 3)], ⟨3, false⟩, .mrdRaw 4 19 22),
  (word [(2, 2), (1, 1), (7, 0x34), (3, 4), (5, 19), (14, 4)], ⟨2, true⟩, .mrdStat 4 19),
  (word [(2, 2), (1, 0), (7, 0x35), (3, 4), (5, 17), (5, 22), (4, 0), (1, 1), (1, 0), (3, 2)], ⟨2, false⟩, .mst 4 17 22 1 0 2),
  (word [(2, 3), (1, 0), (7, 0x36), (3, 4), (5, 17), (13, 0), (1, 1)], ⟨3, false⟩, .mscl 4 17 1),
  (word [(2, 2), (1, 1), (7, 0x38), (5, 9), (5, 17), (5, 22), (7, 0)], ⟨2, true⟩, .seedx 9 17 22),
  (word [(2, 2), (1, 0), (7, 0x39), (5, 9), (5, 17), (5, 22), (2, 0), (5, 11)], ⟨2, false⟩, .seedfit 9 17 22 11)] = true := by decide +kernel

/-- Refused by WellFormed, and its word refused by the decoder with the given reason of R199, 3 for a reserved value. -/
def refused (i : Instr) (reason : Nat := 3) : Bool :=
  !i.wf && match decodeWord (encode { code := if i.isA then 2 else 0, w := false } i) with
    | .ok _ => false
    | .error r => r == reason

/-- One ill-formed term for each check: register numbers (Table 8-3), ordering codes (Table 8-1), scopes, conditions, the
token register, element sizes, rounding modes, lane types, stages, destinations, record counts, odd pairs. -/
theorem test_ill_formed : ([.sysrd 1 0x00A, .syswr 1 0x021, .vld 1 2 3 3 0, .vld 1 2 3 0 6, .vst 1 2 3 7 0, .vst 1 2 3 0 1,
  .vlds 1 2 3 4 0, .vlds 1 2 3 0 11, .vsts 1 2 3 3 0, .vsts 1 2 3 0 5, .vgath 1 2 3 3 0, .vgath 1 2 3 2 15,
  .vscat 1 2 3 4 0, .vscat 1 2 3 2 11, .fence 0 0 0 5, .pbwait 1 2 3 6, .mwait 1 2 3 3 0 0, .mwait 1 2 3 0 0 6,
  .cpy 0 1 2 0, .cpy 1 2 3 5, .cpyS 0 1 2 0, .cpyS 1 2 3 7, .lswap 0 1, .kvapp 0 1 2 0, .kvapp 1 2 3 7, .flpop 0,
  .flpush 0 1, .ssld 0 1 2, .ssst 0 1 2 0, .ssnap 0 1, .ssroll 0 1, .ssfork 0 1 2, .ssdrop 0 1] : List Instr).all (refused ·) =
    true := by decide +kernel
theorem test_ill_formed_float : ([.fadd 1 2 3 5, .fsub 1 2 3 6, .fmul 1 2 3 7, .fdiv 1 2 3 5, .fsqrt 1 2 5, .fmadd 1 2 3 5,
  .fmsub 1 2 3 5, .fnmadd 1 2 3 5, .fnmsub 1 2 3 5, .fcmp 1 2 3 5, .fcvtF32L 1 2 5 0, .fcvtF32Lu 1 2 5 0, .fcvtLF32 1 2 5,
  .fcvtLuF32 1 2 5, .fcvtWF32 1 2 5, .fcvtBf16F32 1 2 5 0] : List Instr).all (refused ·) = true := by decide +kernel
theorem test_ill_formed_vector : ([.vadd 1 2 3 5, .vsub 1 2 3 3, .vadds 1 2 3 6, .vsubs 1 2 3 5, .vmul 1 2 3 5, .vmulh 1 2 3 5,
  .vmin 1 2 3 6, .vmax 1 2 3 6, .vand 1 2 3 5, .vor 1 2 3 5, .vxor 1 2 3 5, .vshl 1 2 3 5, .vshr 1 2 3 5, .vsar 1 2 3 5,
  .vabs 1 2 5, .vfadd 1 2 3 0, .vfsub 1 2 3 1, .vfmul 1 2 3 2, .vfdiv 1 2 3 0, .vfsqrt 1 2 0, .vfmin 1 2 3 0, .vfmax 1 2 3 0,
  .vfabs 1 2 0, .vfneg 1 2 0, .vfmadd 1 2 3 0, .vfmsub 1 2 3 0, .vfnmadd 1 2 3 0, .vfnmsub 1 2 3 0, .vcmp 1 2 3 3 0,
  .vcmp 1 2 3 5 4, .vcmp 1 2 3 0 6, .vsel 1 2 3 7 0, .vbcastX 1 2 3, .vbcastLane 1 2 3 4, .vperm 1 2 3 3,
  .vexp2 1 2 0, .vrcp 1 2 1, .vrsq 1 2 2, .vredAdd 1 2 0 3, .vredMax 1 2 0 4, .vredMin 1 2 0 7, .vredMaxi 1 2 0 3,
  .vxtr 1 2 3 3, .vpopq 1 0 7, .vsumkAcc 1 2 0, .vsumkScale 3 2 0, .vsumkFold 5 0, .vsumkFin 31 0, .vscan 1 2 0 3 0 0, .vhad 1 2 6 0, .vhad 1 2 4 6, .vcvt 1 2 1 3 0 0, .vcvt 1 2 1 0 0 5, .vcvt 1 2 0 0 0 0,
  .mrdF32 0 1 2 0 5, .mrdBf16 0 1 2 0 5, .mst 0 1 2 0 0 5, .seedfit 1 2 3 21] : List Instr).all (refused ·) = true := by
  decide +kernel
/-- A function code that is not listed has reason 1, a field that the form does not use reason 2. -/
theorem test_ill_formed_fields : refused (.vscan 1 2 0 0 0 3) 1 = true ∧ refused (.vcmp 1 2 3 0 7) 1 = true ∧
    refused (.vcvt 1 2 1 0 1 0) 2 = true := by decide +kernel
/-- Unassigned opcodes (reason 0) and a set reserved bit of ADD. -/
theorem test_refused_words :
    ([word [(2, 0), (1, 0), (7, 0x07), (22, 0)], word [(2, 0), (1, 0), (7, 0x4E), (22, 0)],
      word [(2, 2), (1, 0), (7, 0x37), (22, 0)], word [(2, 2), (1, 0), (7, 0x7F), (22, 0)]].all (fun w =>
        match decodeWord w with | .ok _ => false | .error r => r == 0)) = true ∧
    (match decodeWord (word [(2, 2), (1, 0), (7, 0), (5, 1), (5, 2), (5, 3), (1, 1), (6, 0)]) with
      | .ok _ => false | .error r => r != 0) = true := by decide +kernel

/-! ## States in which the statements' hypotheses hold

`base` is a package in the run state in which column 0 runs a firing of band 0. The theorem named after a statement shows
states and operands that meet its hypotheses together, clause by clause. -/

/-- A continuation entry with an input on channel 3, a paced output to channel 5 of column 1, and tile 0. -/
def entry : Entry :=
  { placedEntry with task := false, acc := 1, ins := [⟨3, 1, 1⟩], outs := [⟨0, 1, 5, 2⟩] }

/-- The firing that `Column.begin` makes of it. -/
def firing : Firing :=
  { ent := entry, level := 0, boost := false, refire := false, trig := 0, spent := 0, begun := false, pc := 0, jump := some 0,
    last := 0, sent := [], sends := [], phase := .run, deferred := [], park := none, wait := none, orders := [],
    lwait := none, drain := false, stepMode := false, snap := false, trapFrom := 0 }

def base : State :=
  let s := State.reset
  let t : State := { s with proctor := { s.proctor with power := .run, begun := true } }
  t.modCol 0 (fun c => { c with running := some 0 }.setBank 0 { Bank.empty with firing := some firing })

/-- `base` with its column, its scalar registers or its firing changed. -/
def withCol (f : Column → Column) : State := base.modMe f
def withX (l : List (Nat × Word)) : State :=
  withCol (fun c => l.foldl (fun c e => c.modBank 0 (fun k => k.writeX e.1 e.2)) c)
def withFire (f : Firing → Firing) : State := base.modFire f

/-- A request of column 0, a matrix command, a route from column 0 to channel 5 of column 1, an LSE command for its handle 0,
and an order of device scope that waits for request 1. -/
def request (op : ReqOp) (dst : Option Reg) (st : ReqSt) : MemReq :=
  { id := 1, col := 0, band := 0, rseq := 0, tmsg := 0, tepc := 0, aw := false, va := 0, op := op, dst := dst, st := st,
    got := [], due := 0, when := 0, ctx := 0 }
def lseCmd (desc : Nat) (started switched : Bool) : LCmd :=
  { id := 1, desc := desc, col := 0, h := 0, stamp := some 0xF000000000000000, owner := 0, started := started,
    flow := Flow.start, bad := false, failed := false, parked := none, switched := switched, by_ := none }
def mcmd (op : MOp) : MCmd :=
  { id := 1, band := 0, tmsg := 0, tepc := 0, aw := false, op := op, begun := false, grp := 0, step := 0, from_ := 0, due := 0,
    again := false, promoted := false, reads := [], out := [], res := none }
def route : Route :=
  { region := 1, cast := false, dest := 1, chan := 5, src := 0, unp := false, filter := none, bnd := none, path := [⟨0, false⟩, ⟨1, false⟩] }
def order : Order := { kinds := 15, scope := 3, reqs := [1], engs := [], flush := false, fresh := false }
def ordered (s : State) (o : Order) : State :=
  { s.modFire (fun f => { f with orders := [o] }) with reqs := [request (.load [.gd 0] 1 0 0 0 0) (some (.x 4)) .sent] }

/-- What an access or a step gives satisfies `p`. -/
def okWith (k : Chk) (p : Acc → List Loc → Bool) : Bool := match k with
  | .ok c l => p c l
  | _ => false
def nextWith (o : Out) (p : State → Bool) : Bool := match o with
  | .next t => p t
  | _ => false
def exceptWith {α β : Type} (e : Except α β) (p : β → Bool) : Bool := match e with
  | .ok x => p x
  | .error _ => false
def errorWith {α β : Type} (e : Except α β) (p : α → Bool) : Bool := match e with
  | .ok _ => false
  | .error x => p x

theorem okWith_iff (k : Chk) (p : Acc → List Loc → Bool) : okWith k p = true ↔ ∃ c l, k = .ok c l ∧ p c l = true := by
  cases k with
  | ok c l => exact ⟨fun h => ⟨c, l, rfl, h⟩, fun ⟨_, _, e, h⟩ => by cases e; exact h⟩
  | _ => simp [okWith]
theorem nextWith_iff (o : Out) (p : State → Bool) : nextWith o p = true ↔ ∃ t, o = .next t ∧ p t = true := by
  cases o <;> simp [nextWith]
theorem exceptWith_iff {α β : Type} (e : Except α β) (p : β → Bool) :
    exceptWith e p = true ↔ ∃ x, e = .ok x ∧ p x = true := by
  cases e <;> simp [exceptWith]
theorem errorWith_iff {α β : Type} (e : Except α β) (p : α → Bool) :
    errorWith e p = true ↔ ∃ x, e = .error x ∧ p x = true := by
  cases e <;> simp [errorWith]

theorem test_DecodeOfEncode : (Instr.add 1 2 3).encoded = true ∧ (Instr.add 1 2 3).wf = true ∧
    Header.fits { code := 2, w := true } (.add 1 2 3) = true := by decide
theorem test_EncodeOfDecode : exceptWith (decodeWord 0x4214D008) (fun _ => true) = true := by decide +kernel

/-! ### Scalar and vector instructions -/

theorem test_ScalarAlu : base.ready [.x 1, .x 2, .x 3] = true ∧ base.ready [.x 1, .x 31] = true ∧ base.ready [.x 0] = true := by
  decide +kernel
theorem test_ScalarMulDiv : base.ready [.x 1, .x 2, .x 3] = true ∧ base.unitFree unitDiv = true := by decide +kernel
/-- x1 a NaN, x2 an infinity, x3 a denormal: each side of the NaN test at its boundary. -/
theorem test_ScalarFloat :
    let s := withX [(1, 0x7F800001), (2, 0x7F800000), (3, 1)]
    s.ready [.x 1, .x 2, .x 3, .x 4] = true ∧ s.ready [.x 1, .x 2, .x 4] = true ∧ s.ready [.x 1, .x 4] = true ∧
    s.unitFree unitFdiv = true ∧ 0x7F800000 < ((s.X 1).setWidth 32 : BitVec 32).toNat % 2 ^ 31 ∧
    ¬ 0x7F800000 < ((s.X 2).setWidth 32 : BitVec 32).toNat % 2 ^ 31 ∧
    ¬ 0x7F800000 < ((s.X 3).setWidth 32 : BitVec 32).toNat % 2 ^ 31 := by decide +kernel
theorem test_ScalarCompareConvert : base.ready [.x 1, .x 2, .x 3] = true ∧ base.ready [.x 1, .x 3] = true := by
  decide +kernel
theorem test_VectorInteger : base.ready [.v 1, .v 2, .v 3] = true ∧ base.ready [.v 1, .v 3] = true := by decide +kernel
theorem test_VectorFloat : base.ready [.v 1, .v 2, .v 3] = true ∧ base.ready [.v 1, .v 3] = true ∧
    base.unitFree unitVfdiv = true := by decide +kernel
/-- The last stage of bytes, and a float type. -/
theorem test_HadamardConvert : base.ready [.v 1, .v 3] = true ∧ 5 < laneLog 0 ∧ laneFp 0 = false ∧ laneFp 6 = true := by
  decide +kernel
theorem test_VectorMasksMoves : base.ready [.v 1, .v 2, .q 7] = true ∧ base.ready [.q 1, .q 2, .q 3] = true ∧
    base.ready [.x 1, .q 3] = true ∧ base.ready [.q 1, .x 3] = true ∧ base.ready [.v 1, .v 2, .q 0, .v 3] = true ∧
    base.ready [.x 1, .v 3] = true ∧ base.ready [.v 1, .x 2, .v 3] = true ∧ base.ready [.v 1, .v 2, .v 3] = true := by
  decide +kernel
theorem test_VectorReductions : base.ready [.v 1, .q 0, .x 3] = true ∧ laneFp 2 = false ∧ laneFp 5 = true ∧
    base.ready [.v 1, .x 2, .x 3] = true ∧ base.ready [.q 0, .x 3] = true := by decide +kernel
theorem test_SumsScans : base.ready [.v 1, .q 0, .v 2, .v 3] = true ∧ base.ready [.q 0, .v 2, .v 3] = true ∧
    base.unitFree unitFold = true ∧ base.ready [.v 1, .q 0, .v 2] = true := by decide +kernel

/-! ### Registers in flight, steps, control transfers, traps -/

theorem test_RegisterOnlyFrame : registerOnly (.add 1 2 3) = true ∧
    nextWith (exec (.add 1 2 3) base) (fun t => t.last == .issued) = true := by decide +kernel

/-- A result for x1 that waits in the bank, from an earlier group. -/
def pend (v : PVal) : Pend := { reg := .x 1, val := v, due := 0, flags := 1, ftz := 2, band := 0, fresh := false }
def withPend (v : PVal) : State := withCol (fun c => c.modBank 0 (fun k => { k with pend := [pend v] }))

theorem test_Scoreboard :
    (((withPend (.known 7)).col 0).bank 0).pend[0]? = some (pend (.known 7)) ∧ (pend (.known 7)).val = .known 7 ∧
    (pend (.known 7)).due ≤ ((withPend (.known 7)).col 0).cycle ∧
    (withPend (.known 7)).ready [.x 2, .x 3, .x 1] = false ∧ (withPend (.known 7)).parkedOf [.x 2, .x 3, .x 1] = [] ∧
    (withCol (fun c => c.modBank 0 (fun k => { k with pend := [{ pend (.known 7) with reg := .v 1 }] }))).ready
      [.v 1, .q 0, .x 3] = false := by decide +kernel

/-- `base` with words at offset 0 and column 0's turn to issue. -/
def withWords (ws : List Nat) : State :=
  { base.wrBytes (.ls 0 0) (ws.flatMap (leBytes 4)) with agenda := [.issue 0] }

theorem test_StepRunsLoneWord :
    (withWords [0x44010025]).readyToIssue 0 [] firing ∧
    (((withWords [0x44010025]).atIssue 0 []).fetchGroup 0 0 (some 0) 0 = .lone 0x44010025 4) ∧
    exceptWith (decodeNat 0x44010025) (fun e => e.2 == .loop 16 37) = true ∧
    (withWords [0x53C00000]).readyToIssue 0 [] firing ∧
    (((withWords [0x53C00000]).atIssue 0 []).fetchGroup 0 0 (some 0) 0 = .lone 0x53C00000 4) ∧
    errorWith (decodeNat 0x53C00000) (fun _ => true) = true ∧
    ((withWords [0x44010025]).atIssue 0 []).heldBy (Instr.orderKind (.loop 16 37)) [] = [] ∧
    (let s := ordered (withWords [0x4C480001]) order
     s.readyToIssue 0 [] { firing with orders := [order] } ∧
     ((s.atIssue 0 []).fetchGroup 0 0 (some 0) 0 = .lone 0x4C480001 4) ∧
     exceptWith (decodeNat 0x4C480001) (fun e => e.2 == .send 4 1) = true ∧
     (s.atIssue 0 []).heldBy (Instr.orderKind (.send 4 1)) [] = [order] ∧
     ([order].flatMap (·.engs)).all (fun n => !(s.atIssue 0 []).me.parkedIds.contains n) = true) := by
  unfold State.readyToIssue; decide +kernel

/-- Two words of a pair, and what each does alone. -/
def pairOf (i j : Instr) : List Nat := [(encode { code := 0, w := false } i).toNat, (encode { code := 3, w := false } j).toNat]
def pairGives (s : State) (i j : Instr) (p : State → State → State → Bool) : Bool :=
  let v := ({ s.wrBytes (.ls 0 0) ((pairOf i j).flatMap (leBytes 4)) with agenda := [.issue 0] } : State).atIssue 0 []
  let ws := pairOf i j
  v.fetchGroup 0 0 (some 0) 0 == .pair (ws.getD 0 0) (ws.getD 1 0) 8 &&
  exceptWith (decodeNat (ws.getD 0 0)) (fun e => e.2 == i) && exceptWith (decodeNat (ws.getD 1 0)) (fun e => e.2 == j) &&
  (v.heldBy (Instr.orderKind i) []).isEmpty && (v.heldBy (Instr.orderKind j) []).isEmpty && !sameDest i j && !afterA j &&
  nextWith (exec i (v.enter (ws.getD 0 0) 0 8 false)) (fun c =>
    nextWith (exec j (v.enter (ws.getD 1 0) 0 8 true)) (fun a => p v c a))
/-- x2 is pending from an earlier group. -/
def busyX2 : State := withCol (fun c => c.modBank 0 (fun k => { k with pend := [{ pend (.known 7) with reg := .x 2, due := 9 }] }))
/-- The trap bank entered. -/
def trapState : State := withCol (fun c => { c with inTrap := true })

theorem test_StepRunsPair_ready :
    (withWords (pairOf .nop (.add 1 2 3))).readyToIssue 0 [] firing ∧
    (withWords [word [(2, 0), (1, 0), (7, 0x07), (22, 0)] |>.toNat, 0xC0022180]).readyToIssue 0 [] firing := by
  unfold State.readyToIssue; decide +kernel
/-- Both issue: NOP, SYSWR and END with ADD, and TRET.abort in the trap bank; a first word that stalls; a second one; a first
that traps, with an ADD that issues; a second that traps, the tile of MMA undeclared, with NOP, END and SYSWR. -/
theorem test_StepRunsPair :
    pairGives base .nop (.add 1 2 3) (fun v c a => c.last == .issued && !v.cancels .nop c.last && a.last == .issued) = true ∧
    pairGives base (.syswr 2 3) (.add 1 2 3) (fun v c a => c.last == .issued && !v.cancels (.syswr 2 3) c.last && a.last == .issued) =
      true ∧
    pairGives base .endFiring (.add 1 2 3) (fun v c a => !v.cancels .endFiring c.last && a.last == .issued) = true ∧
    pairGives trapState .tretAbort (.add 1 2 3) (fun v c a => c.last == .trapped && !v.cancels .tretAbort c.last &&
      a.last == .issued) = true ∧ afterA .tretAbort = true ∧ afterA .endFiring = true ∧ afterA .nop = false ∧
    pairGives busyX2 (.sysrd 2 3) (.add 1 3 4) (fun _ c _ => c.last == .stalled) = true ∧
    pairGives busyX2 .nop (.add 1 2 3) (fun _ c a => c.last != .stalled && a.last == .stalled) = true ∧
    pairGives base (.trap 0 0 0) (.add 1 2 3) (fun v c a => v.cancels (.trap 0 0 0) c.last && a.last != .stalled) = true ∧
    [Instr.nop, .endFiring, .syswr 2 3].all (fun i => pairGives base i (.mma 1 1 2 0) (fun v c a => c.last != .stalled &&
      !v.cancels i c.last && a.last == .trapped)) = true := by decide +kernel
/-- One destination of both; an illegal first word; an illegal second one beside a word that issues, stalls, traps. -/
theorem test_StepRunsPair_illegal :
    let bad := (word [(2, 3), (1, 0), (7, 0x37), (22, 0)]).toNat
    let first := (word [(2, 0), (1, 0), (7, 0x07), (22, 0)]).toNat
    let c (i : Instr) (s : State) (p : State → State → Bool) : Bool :=
      let w := (pairOf i i).getD 0 0
      let v := ({ s.wrBytes (.ls 0 0) ([w, bad].flatMap (leBytes 4)) with agenda := [.issue 0] } : State).atIssue 0 []
      v.fetchGroup 0 0 (some 0) 0 == .pair w bad 8 && exceptWith (decodeNat w) (fun e => e.2 == i) &&
        (v.heldBy (Instr.orderKind i) []).isEmpty && nextWith (exec i (v.enter w 0 8 false)) (p v)
    sameDest (.sysrd 3 1) (.add 3 1 2) = true ∧ errorWith (decodeNat bad) (fun _ => true) = true ∧
    ((withWords [first, 0xC0022180]).atIssue 0 []).fetchGroup 0 0 (some 0) 0 = .pair first 0xC0022180 8 ∧
    errorWith (decodeNat first) (fun _ => true) = true ∧
    ((withWords [first, 0xC0022180]).atIssue 0 []).heldBy ((firstInstr 0xC0022180).elim 0 Instr.orderKind) [] = [] ∧
    c .nop base (fun v k => k.last != .stalled && !v.cancels .nop k.last) = true ∧
    c .tretAbort trapState (fun v k => k.last != .stalled && !v.cancels .tretAbort k.last) = true ∧
    c (.trap 0 0 0) base (fun v k => v.cancels (.trap 0 0 0) k.last) = true ∧
    c (.sysrd 2 3) busyX2 (fun _ k => k.last == .stalled) = true := by decide +kernel

theorem test_NextGroup : base.last = .issued ∧ base.fire = some firing ∧ firing.stepMode = false ∧ firing.park = none ∧
    base.bk.loop = none := by decide +kernel
theorem test_StepRunsEvent : ({ base with agenda := [.event .replanTimer] } : State).agenda = .event .replanTimer :: [] ∧
    Instr.replanTimer.encoded = false ∧ base.proctor.rtDue = [] ∧ base.proctor.rtPause = [] ∧ base.late = [] ∧ base.early = [] := by decide +kernel

/-- JALR to a group and to an odd address; LOOP with an exit beyond its group, without one, and inside a loop. -/
theorem test_ControlTransfers :
    let s := (withWords [0x00000000, 0xC0022180]).modBk (fun k => k.writeX 4 1)
    let l := base.modBk (fun k => { k with loop := some { start := 0, stop := 8, n := 1 } })
    s.ready [.x 0, .x 4] = true ∧ s.ready [.x 31] = true ∧
    s.fetchGroup s.cur (s.X 0 + BitVec.signExtend 64 (0 : BitVec 12)).toNat (some 0) 0 = .pair 0 0xC0022180 8 ∧
    (match s.fetchGroup s.cur (s.X 4 + BitVec.signExtend 64 (0 : BitVec 12)).toNat (some 0) 0 with
      | .trap _ _ => true | _ => false) = true ∧
    s.bk.loop = none ∧ s.ctx.next < s.ctx.pc + 4 * (1 : BitVec 12).toNat ∧
    s.me.inTrap = false ∧ s.fire = some firing ∧ s.ctx.pc + 4 * (0 : BitVec 12).toNat ≤ s.ctx.next ∧
    l.ready [.x 0] = true ∧ l.me.inTrap = false ∧ l.fire = some firing ∧ l.bk.loop.isSome = true := by decide +kernel
theorem test_SystemInstructions : base.ready [.x 1] = true ∧ base.proctor.armed = none ∧
    base.me.sysWait 0x100 = false ∧ base.me.inTrap = false ∧ (withCol (fun c => { c with mq := [mcmd (.prom 0)] })).me.sysWait 0x012 = true ∧
    trapState.me.inTrap = true ∧ trapState.me.running.isSome = true ∧ trapState.fire = some firing := by decide +kernel
theorem test_AddressConversion : base.ready [.x 1, .x 2] = true := by decide +kernel

theorem test_TrapInstruction : base.ready [.x 1] = true ∧ base.me.inTrap = false ∧ base.fire = some firing ∧
    (withCol (fun c => { c with tvec := 0x100040 })).me.tvec.getLsbD 20 = true ∧
    trapState.ready [.x 1] = true ∧ trapState.me.inTrap = true ∧ trapState.fire = some firing ∧
    trapState.me.running.isSome = true := by decide +kernel
theorem test_TrapReturn : trapState.fire = some firing ∧ trapState.me.inTrap = true ∧
    (trapState.me.bank trapState.me.band).loop = none ∧ trapState.me.running.isSome = true ∧
    base.fire = some firing ∧ base.me.inTrap = false := by decide +kernel
theorem test_IllegalGroup : 1 ≤ 8 ∧ 8 ≤ 8 ∧ base.me.inTrap = false ∧ base.fire = some firing := by decide +kernel

/-! ### Memory -/

/-- With a page table at the start of GDDR 7: a 1 GiB page of device memory at 0, one of host memory at 2^30. -/
def mapped (s : State) : State := { (s.wrNat (.gd 0) 8 7).wrNat (.gd 8) 8 0x17 with ptroot := 1 }
/-- x1 holds the address of the own local store's byte `o`. -/
def at_ (o : Nat) : State := withX [(1, localAddr o), (2, 16), (3, 0)]
/-- The last addresses of the local store that each size admits. -/
theorem test_LocalAccesses : (at_ 0xFFFF8).ready [.x 1, .x 4] = true ∧ (at_ 0xFFFF8).quiet ∧ (at_ 0xFFFF8).unordered ∧
    [(1, 0xFFFFF), (2, 0xFFFFE), (4, 0xFFFFC), (8, 0xFFFF8)].all (fun e => (at_ e.2).X 1 + BitVec.signExtend 64 (0 : BitVec 12) ==
      localAddr e.2 && (at_ e.2).X 1 == localAddr e.2 && (e.2 % e.1 == 0 && decide (e.2 + e.1 ≤ 2 ^ 20))) = true ∧
    (at_ 8).X 1 + BitVec.signExtend 64 (0xFF8 : BitVec 12) = localAddr 0 ∧ 0 % 8 = 0 ∧ 0 + 8 ≤ 2 ^ 20 := by
  unfold State.quiet State.unordered; decide +kernel

/-- Window 4 of the own local store, raw local store, global memory, and a full send buffer. -/
theorem test_ScalarAnyWindow :
    let w := withX [(1, 0xF000000000400000), (2, 0x40)]
    let g := mapped (withX [(1, 0x1000)])
    let full := g.modFire (fun f => { f with sends := List.replicate 16 (.msg 1 5 0 0 []) })
    let one (s : State) (n : Nat) (wr own : Bool) (adm : Acc → Bool) : Bool :=
      okWith (s.access (s.X 1 + BitVec.signExtend 64 (0 : BitVec 12)) wr (scalarSize n) (scalarAlign n) adm) (fun c l =>
        c.isOwn == own && !s.mxWait wr l && (s.badLoc l).isNone && (s.heldBy 3 l).isEmpty)
    w.ready [.x 1, .x 4] = true ∧ w.apart = false ∧ (at_ 8).apart = false ∧
    okWith ((at_ 8).access ((at_ 8).X 1) false (fun _ => 8) (fun _ => 8) (fun c => c.glob || c.win == 0)) (fun c _ => c.isOwn) = true ∧
    okWith (g.access (g.X 1) false (fun _ => 8) (fun _ => 8) (fun c => c.glob || c.win == 0)) (fun c l => !c.isOwn && (g.badLoc l).isNone &&
      (g.heldBy 1 l).isEmpty && !g.mxWait false l) = true ∧
    (one w 1 false true admitInt && one (at_ 8) 8 false true admitInt &&
      one g 8 false false admitInt && one g 4 false false admitLdf && one (at_ 8) 2 false true admitLdf &&
      one w 1 true true admitInt && one (at_ 8) 8 true true admitInt && one g 8 true false admitInt &&
      one g 4 true false admitStf && one (at_ 8) 2 true true admitStf && one full 8 true false admitInt) = true ∧
    g.fire.elim 0 (·.sends.length) < 16 ∧ 16 ≤ full.fire.elim 0 (·.sends.length) := by decide +kernel

/-- The first and last address of each range; no address lies in two. -/
theorem test_AccessChecks : base.ready [.x 1, .x 4] = true ∧ base.ready [.x 1, .x 2, .x 4] = true ∧
    (let at_ (a : Nat) := ((withX [(1, w64 a)]).X 1).toNat
     at_ (2 ^ 47) = 2 ^ 47 ∧ at_ 0xEFFFFFFFFFFFFFFF < 0xF000000000000000 ∧ 0xF000000001000000 ≤ at_ 0xF000000001000000 ∧
     at_ 0xF0FFFFFFFFFFFFFF < 0xF100000000000000 ∧ 0xF100000004000000 ≤ at_ 0xF100000004000000 ∧
     0xF100000000F00000 ≤ 0xF100000003FFFFF8 ∧ at_ 0xF100000000F00000 / 2 ^ 20 % 16 = 15 ∧ at_ 0xF100000003FFFFF8 / 2 ^ 20 % 16 = 15 ∧
     at_ 0xF100000003FFFFF8 ≤ 0xF100000003FFFFF8 ∧ 0xF100000003FFFFF8 < at_ 0xF100000003FFFFF9 ∧
     at_ 0xF100000003FFFFFF < 0xF100000004000000 ∧ 0xF000000000FFFFF8 < at_ 0xF000000000FFFFF9 ∧
     at_ 0xF000000000FFFFFF < 0xF000000001000000 ∧
     0xF000000000F00000 ≤ at_ 0xF000000000F00000 ∧ at_ 0xF000000000FFFFF8 ≤ 0xF000000000FFFFF8 ∧
     0xF000000000100000 ≤ at_ 0xF000000000100000 ∧ at_ 0xF0000000001FFFFF < 0xF000000000200000 ∧
     at_ 0xF0000000000FFFFF % 8 ≠ 0 ∧ at_ 0xF0000000000FFFFF < 0xF000000000100000) := by decide +kernel

theorem test_VectorMemory :
    let s := mapped ((withX [(1, localAddr 0x40), (2, 0)]).modBk (fun k => k.writeX 4 0x1000))
    let ok (k : Chk) (wr own : Bool) : Bool := okWith k (fun c l => c.isOwn == own && !s.mxWait wr l && (s.badLoc l).isNone && (s.heldBy 3 l).isEmpty)
    s.ready [.x 1, .x 2, .v 3] = true ∧ s.ready [.x 1, .v 2, .v 3] = true ∧
    (ok (s.access (s.X 1 + s.X 2) false (vecSize 6) vecAlign (admitVld 6)) false true &&
      ok (s.access (s.X 4 + s.X 2) false (vecSize 6) vecAlign (admitVld 6)) false false &&
      ok (s.accessLanes (strideAddrs (laneN 6) (s.X 1) (s.X 2)) 6 false) false true &&
      ok (s.accessLanes (indexAddrs (s.X 1) (s.V 2)) 2 false) false true &&
      ok (s.accessLanes (indexAddrs (s.X 4) (s.V 2)) 2 false) false false &&
      ok (s.access (s.X 1 + s.X 2) true (vecSize 6) vecAlign (admitVst 6)) true true &&
      ok (s.access (s.X 4 + s.X 2) true (vecSize 6) vecAlign (admitVst 6)) true false &&
      ok (s.accessLanes (strideAddrs (laneN 6) (s.X 1) (s.X 2)) 6 true) true true &&
      ok (s.accessLanes (indexAddrs (s.X 1) (s.V 2)) 2 true) true true) = true ∧
    s.relWait 0 = false ∧ s.apart = false ∧ s.fire.elim 0 (·.sends.length) < 16 := by decide +kernel

/-- An atomic at the own local store, at global memory and at host memory. -/
theorem test_Atomics :
    let raw (c : Acc) : Bool := c.glob || c.win == 0
    let ok (s : State) (own host : Bool) : Bool := okWith (s.access (s.X 1) true (fun _ => 8) (fun _ => 8) raw)
      (fun c l => match l with
        | [] => false
        | x :: r => c.isOwn == own && isHost x == host && !s.mxWait true (x :: r) && (s.badLoc (x :: r)).isNone &&
          (s.heldBy 3 (x :: r)).isEmpty)
    base.ready [.x 1, .x 2, .x 4] = true ∧ ok (at_ 8) true false = true ∧ ok (mapped (withX [(1, 0x1000)])) false false = true ∧
    ok (mapped (withX [(1, 0x40000000)])) false true = true ∧
    base.relWait 0 = false ∧ hostAmo 0 = true ∧ hostAmo 1 = false := by decide +kernel

/-- Nothing to wait for; an order that a load of GDDR 7 keeps open, at device scope, met by a load, a store and an atomic. -/
theorem test_Fences :
    let s := ordered (at_ 8) order
    let lw := (withFire (fun f => { f with lwait := some [1] }))
    let l : State := { lw with lse := [(0, [lseCmd 0 true false])] }
    base.unperformed 4 false = [] ∧ base.unperformed 4 true = [] ∧ base.hostPending base.cur = false ∧
    base.engineIds base.cur base.me.band = [] ∧ s.ready [.x 1, .x 4] = true ∧ s.ready [.x 1, .x 2, .x 4] = true ∧
    s.fire.elim [] (·.orders) = [order] ∧ order.fresh = false ∧ s.orderOver order = false ∧ s.me.parkedIds = [] ∧
    order.kinds % 2 = 1 ∧ order.kinds / 2 % 2 = 1 ∧ order.kinds % 4 ≠ 0 ∧
    okWith (s.access (s.X 1 + BitVec.signExtend 64 (0 : BitVec 12)) false (scalarSize 8) (scalarAlign 8) admitInt) (fun _ l =>
      l.any (inScope s.cur order.scope s.capacity)) = true ∧
    okWith (s.access (s.X 1 + BitVec.signExtend 64 (0 : BitVec 12)) true (scalarSize 8) (scalarAlign 8) admitInt) (fun c _ =>
      c.isOwn) = true ∧
    okWith (s.access (s.X 1) true (fun _ => 8) (fun _ => 8) (fun c => c.glob || c.win == 0)) (fun _ l =>
      l.all (fun y => !isHost y)) = true ∧
    l.fire.elim none (·.lwait) = some [1] ∧ (lseCmd 0 true false) ∈ sget [] l.lse (dieOf l.cur) ∧
    (lseCmd 0 true false).id ∈ [1] ∧ (lseCmd 0 true false).switched = false := by decide +kernel

/-- A phase word of the own local store: counts below, at and above what is pending. -/
theorem test_BarriersWaits :
    let s := (at_ 0x40).wrNat (.ls 0 0x40) 8 2
    let raw (c : Acc) : Bool := c.glob || c.win == 0
    let ok (wr : Bool) (n : Nat) : Bool := okWith (s.access (s.X 1) wr (fun _ => n) (fun _ => n) raw)
      (fun c l => match l with
        | [] => false
        | x :: r => c.isOwn && !isHost x && !s.mxWait wr (x :: r) && (s.badLoc (x :: r)).isNone &&
          (s.heldBy 3 (x :: r)).isEmpty && !s.ownBefore (x :: r) && !s.ownBefore ((x :: r).drop 8) &&
          s.rdNat x 8 % 2 ^ 32 == 2)
    s.ready [.x 1, .x 2, .x 4] = true ∧ (ok true 16 && ok false 16 && ok false 8 && ok false 4) = true ∧
    s.relWait 0 = false ∧ 2 < (s.X 2).toNat ∧ (s.X 3).toNat ≤ 2 ∧
    (let g := mapped (withX [(1, 0x1000), (2, 16), (4, 5)])
     let h := g.modFire (fun f => { f with wait := some { since := 0, req := none, got := some (.done 15 0 0, 4) } })
     g.ready [.x 1, .x 2, .x 4] = true ∧ okWith (g.access (g.X 1) false (fun _ => 8) (fun _ => 8) raw) (fun c l =>
       c.glob && (g.heldBy 1 l).isEmpty && !g.mxWait false l) = true ∧ g.wait = none ∧
     h.wait = some { since := 0, req := none, got := some (.done 15 0 0, 4) } ∧ (15 : Word).toNat ≠ (h.X 2).toNat ∧
     ¬ (h.X 2).toNat ≤ (15 : Word).toNat ∧ 4 - 0 < (h.X 4).toNat % 2 ^ 32 ∧ (h.X 3).toNat % 2 ^ 32 ≤ 4 - 0) := by
  decide +kernel

/-- Requests sent, refused, performed and uncorrectable; a store, a load, an atomic, a phase barrier. -/
theorem test_RemoteRequests :
    let ops : List ReqOp := [.store [⟨.ls 16 0, 7, 0xFF⟩], .load [.ls 16 0] 1 0 0 0 0, .amo (.ls 16 8) 0 1 0, .pbarr (.ls 16 16) 0 1]
    let flipped := base.modCol 16 (fun c => { c with lsFlip := [(0, 3)] })
    (ops.all (fun op =>
      let r := request op none .sent
      let s : State := { base with reqs := [r] }
      let x := r.piece none
      s.reqs[0]? == some r && !reqBlocked s.reqs 0 0 x && !s.inBacking r.col r.va.toNat (x.map (·.2)) &&
        !s.inBacking r.col r.va.toNat r.op.locs && x.length == r.left.length)) = true ∧
    (let two := request (.load [.ls 16 0, .ls 16 8] 1 0 0 0 0) none .sent
     let far := request (.load [.host 0] 1 0 0 0 0) none .sent
     two.piece (some 0) = [(0, .ls 16 0)] ∧ two.piece none = two.left ∧ two.left.length = 2 ∧ base.mayRefuse far = true ∧ far.got = [] ∧ far.st = .sent) ∧
    base.badLoc [.ls 16 0] = none ∧ flipped.badLoc [.ls 16 0] = some (.ls 16 0) ∧ base.errAt (.ls 16 8) 8 ≠ 2 ∧
    base.errAt (.ls 16 16) 16 ≠ 2 ∧ flipped.errAt (.ls 16 0) 8 = 2 ∧
    (let d := request (.load [.ls 16 0] 1 0 0 0 0) (some (.x 4)) (.done 5 0 0)
     let a := request (.store []) none (.done 0 0 0)
     let r := request (.store []) none .refused
     let g := request (.load [.ls 16 0] 1 0 0 0 0) (some (.x 4)) .refused
     ({ base with reqs := [d, a, r, g] } : State).reqs[0]? = some d ∧ d.dst = some (.x 4) ∧ d.st = .done 5 0 0 ∧
     (5 : VWord).getLsbD 64 = false ∧ (BitVec.ofNat 512 (2 ^ 64) : VWord).getLsbD 64 = true ∧ (withPend (.await 1)).awaits d = true ∧
     (request (.pbarr (.ls 16 16) 0 1) (some (.x 4)) (.done (BitVec.ofNat 512 (2 ^ 64)) 0 0)).dst = some (.x 4) ∧
     (request (.load [.ls 16 0] 1 0 0 0 0) (some (.x 4)) (.bad 0x305 0)).st = .bad 0x305 0 ∧
     a.dst = none ∧ a.st = .done 0 0 0 ∧ r.st = .refused ∧ r.dst = none ∧ g.st = .refused ∧ g.dst.isSome = true) := by
  decide +kernel

/-! ### Channels, bells -/

def msg (kind len : Nat) : Msg :=
  { dest := 0, chan := 3, kind := kind, len := len, seq := 0, ctx := 0, src := 1, ferr := false, pay := List.replicate (64 * len + 56) 0 }
def item (m : Msg) (taken : Option Nat) : Item := { msg := m, taken := taken, tick := 0, ord := 0 }
/-- Channel 3 with these items. -/
def withItems (l : List Item) : State :=
  withCol (fun c => c.setChan 3 { Chan.empty with slots := 4, land := 0x400, producer := 1, items := l })

/-- Nothing there, a message, a marker first, the count exhausted, and a channel that is no input. -/
theorem test_Receive :
    let s := withItems [item (msg 0 0) none]
    let m := withItems [item (msg 1 0) none]
    let x := withItems [item (msg 0 0) (some 0)]
    let i : InDecl := ⟨3, 1, 1⟩
    s.me.inTrap = false ∧ s.ready [.x 4] = true ∧ s.fire = some firing ∧ firing.ent.inOf 4 = none ∧ firing.ent.inOf 3 = some i ∧
    i.count ≤ ((x.me.chan 3).takenBy x.me.band).length ∧ ((s.me.chan 3).takenBy s.me.band).length < i.count ∧
    findIx (fun i => i.taken.isNone) ((withItems []).me.chan 3).items = none ∧
    findIx (fun i => i.taken.isNone) (s.me.chan 3).items = some 0 ∧ (s.me.chan 3).items[0]? = some (item (msg 0 0) none) ∧
    (msg 0 0).isMarker = false ∧ s.me.mxCmds = [] ∧
    findIx (fun i => i.taken.isNone) (m.me.chan 3).items = some 0 ∧ (msg 1 0).isMarker = true := by decide +kernel

/-- The last message that fits, one unit too many, and each check of the header with those before it passed. -/
theorem test_SendMessage :
    let s := withX [(1, localAddr 0xFFFC0)]
    let long := s.wrNat (.ls 0 0xFFFC0) 8 (2 ^ 21)
    let opened := base.modMe (fun c => c.setOut (outKey 1 5) { Output.empty with opened := true, cap := 1 })
    let full := { firing with sends := List.replicate 16 (.msg 1 5 0 0 []) }
    let sentTwo := { firing with sent := [(5, 2)] }
    s.me.inTrap = false ∧ s.ready [.x 1] = true ∧ s.fire = some firing ∧
    exceptWith (sendAddr s.cur (s.X 1)) (fun o => o == 0xFFFC0) = true ∧
    0xFFFC0 + 64 * (s.rdNat (.ls s.cur 0xFFFC0) 8 / 2 ^ 21 % 8 + 1) ≤ 2 ^ 20 ∧
    2 ^ 20 < 0xFFFC0 + 64 * (long.rdNat (.ls s.cur 0xFFFC0) 8 / 2 ^ 21 % 8 + 1) ∧
    errorWith (s.sendCheck firing 6 0) (fun e => e.1 == 0x183) = true ∧
    exceptWith (s.sendCheck firing 5 0) (fun o => o.dest == 1) = true ∧ s.quiet ∧
    firing.ent.outOf 6 = none ∧ firing.ent.outOf 5 = some ⟨0, 1, 5, 2⟩ ∧
    2 < 3 * 2 ^ 17 / 2 ^ 17 % 16 ∧ ¬ 2 < 0 / 2 ^ 17 % 16 ∧
    (opened.me.out (outKey 1 5)).opened = true ∧ (opened.me.out (outKey 1 5)).cap < 2 ^ 21 / 2 ^ 21 % 8 + 1 ∧
    (s.me.out (outKey 1 5)).opened = false ∧ 2 < sentTwo.sentOn 5 + 0 + 1 ∧ ¬ 2 < firing.sentOn 5 + 0 + 1 ∧
    16 ≤ full.sends.length ∧ firing.sends.length < 16 := by
  unfold State.quiet; decide +kernel

/-- A route of the graph with tag 0, with no stage on it. -/
theorem test_SendMessage_units :
    let s : State := { base with routes := [route] }
    s.routeTo s.me.ctx s.cur 1 5 = some route ∧ s.endsAt route = none := by decide +kernel

theorem test_ChannelReads : base.me.inTrap = false ∧ base.ready [.x 4] = true ∧ base.fire = some firing ∧
    ((withItems [item (msg 0 0) none, item (msg 1 0) none]).me.chan 3).items.length ≤ 2 ∧
    (((withItems [item (msg 0 0) none, item (msg 1 0) none]).me.chan 3).items.filter (fun i => i.taken.isNone))[1]? =
      some (item (msg 1 0) none) := by decide +kernel

/-- Line 0 of die 0 bound to group 1 of columns 0 and 1, with these flags. -/
def withBell (map : Nat) (flags : List Nat) : State :=
  { base with groups := [(1, map)], bells := [(0, { group := some 1, phase := false, flags := flags })] }
theorem test_Bells :
    base.ready [.x 4] = true ∧ (base.bell (dieOf base.cur) 0).group = none ∧
    ((withBell 3 []).bell 0 0).group = some 1 ∧ 0 ∉ members ((withBell 2 []).groupMap 1) ∧
    0 ∈ members ((withBell 3 [0]).groupMap 1) ∧ 0 ∈ ((withBell 3 [0]).bell 0 0).flags ∧
    0 ∉ ((withBell 3 [1]).bell 0 0).flags ∧
    (∀ p ∈ members ((withBell 3 [1]).groupMap 1), p = 0 ∨ p ∈ ((withBell 3 [1]).bell 0 0).flags) ∧
    (∃ p ∈ members ((withBell 3 []).groupMap 1), p ≠ 0 ∧ p ∉ ((withBell 3 []).bell 0 0).flags) ∧
    (withBell 3 []).relWaitAt (bellScope (members ((withBell 3 []).groupMap 1))) = false ∧
    (({ withBell 3 [] with reqs := [request (.amo (.ls 1 8) 0 1 0) (some (.x 4)) .sent] } : State).relWaitAt
      (bellScope (members ((withBell 3 []).groupMap 1)))) = true := by decide +kernel

/-! ### Matrix -/

/-- Handle 0 holds 4 tiles of 8-bit integers; SAG 0 names it; x1 an operand in window `w`, x2 a control word, x3 and x4 raw. -/
def matrix (w ctl : Nat) : State :=
  (withX [(1, w64 (0xF000000000000000 + w * 2 ^ 20)), (2, w64 ctl), (3, localAddr 0x800), (4, localAddr 0x1000)]).modMe (fun c =>
    { c with htab := [(0, { Handle.empty with fmt := 3, valid := true, len := 1 })] }.modBank 0 (fun k =>
      { k with saga := [(0, 0x100000100)], sagb := [(0, 1)] }))
def floatTile : State := withCol (fun c => { c with tiles := [(0, { Tile.zero with fl := true })] })
def fullQueue : State := withCol (fun c => { c with mq := [mcmd (.prom 0), mcmd (.prom 0)] })

theorem test_MatrixIssue :
    let s := matrix 3 (32 + 2 ^ 16 * 32)
    let e := { s with cols := (s.modMe (fun c => { c with htab := [] })).cols }
    let g := matrix 3 (32 + 2 ^ 16 * 32 + 2 ^ 36 * 32)
    let many := matrix 3 (32 + 2 ^ 16 * 32 + 2 ^ 36 * 33)
    s.tileReady 0 ∧ s.ready [.x 2, .v 4] = true ∧ s.ready [.v 4] = true ∧ s.me.modeOf 0 = false ∧ floatTile.me.modeOf 0 = true ∧
    floatTile.tileReady 0 ∧ s.ready [.x 1, .x 2] = true ∧
    exceptWith (mxAddr s.cur (s.X 1) (ownWin (fun w => w != 0))) (fun k => k.win == 3 && k.off == 0) = true ∧
    winInt 3 = true ∧ 0 % winAlign 3 = 0 ∧ 0 + 31 * 32 + ceilDiv (32 * winBits 3) 8 ≤ 2 ^ 20 ∧
    exceptWith (mxAddr s.cur (s.X 3) (fun k => !k.glob && (k.win == 0 || k.win == 14))) (fun k => k.off == 0x800) = true ∧
    fieldW (s.X 2) 15 0 ≠ 0 ∧ fieldW ((matrix 3 0).X 2) 15 0 = 0 ∧
    exceptWith (s.mmaGroups 0 (s.X 1) 32 32 [(0, 0, 32)]) (fun l => l.length == 1) = true ∧
    errorWith (e.mmaGroups 0 (e.X 1) 32 32 [(0, 0, 32)]) (fun x => x.1 == 0x106) = true ∧
    (mmagCounts (g.X 2) 1).foldl (· + ·) 0 ≤ 32 ∧
    exceptWith (g.mmaGroups 0 (g.X 1) 32 32 (mmagSpans (mmagCounts (g.X 2) 1) 0 0)) (fun l => l.length == 1) = true ∧
    32 < (mmagCounts (many.X 2) 1).foldl (· + ·) 0 ∧
    s.ready [.x 4, .x 3, .x 5] = true ∧ s.me.mq.length < 2 ∧
    exceptWith (seedAddr s.cur (s.X 4) (fun w => w == 0 || w == 11) (fun _ => 2048)) (fun k => k.off == 0x1000) = true ∧
    exceptWith (seedAddr s.cur (s.X 3) (fun w => w == 0) (fun _ => 64)) (fun k => k.off == 0x800) = true ∧
    exceptWith (seedAddr s.cur (0xF000000000E00000 : Word) (fun w => w == 11 || w == 14)
      (fun c => if c.win = 11 then 2048 else 4096)) (fun k => k.win == 14) = true ∧
    exceptWith (seedAddr s.cur (s.X 2) (fun w => w == 0 || w == 11) (fun _ => 2048)) (fun _ => true) = false ∧
    exceptWith (seedAddr s.cur (s.X 2) (fun w => w == 11 || w == 14) (fun c => if c.win = 11 then 2048 else 4096)) (fun _ => true) =
      false ∧
    exceptWith (mxAddr s.cur (s.X 3) (ownWin (fun w => w != 0))) (fun _ => true) = false ∧
    exceptWith (mxAddr s.cur (s.X 1) (fun k => !k.glob && (k.win == 0 || k.win == 14))) (fun _ => true) = false ∧
    trapState.me.inTrap = true ∧ bitN (s.fire.elim 0 (·.ent.acc)) 1 = false ∧
    fullQueue.me.inTrap = false ∧ bitN (fullQueue.fire.elim 0 (·.ent.acc)) 0 = true ∧ 2 ≤ fullQueue.me.mq.length := by
  unfold State.tileReady; decide +kernel

/-- A command not begun at the head of the queue; begun ones with bytes to write, with steps left, and done. -/
theorem test_MatrixUnit :
    let ops : List MOp := [.zero 0 false, .prom 0, .scale 0 0 0 false, .read 0 4 0 0 0 0 false, .store 0 0 3 32 none false 0]
    let g : MGroup := { sag := 0, row0 := 0, rows := 32, fa := 3, acol := 0, aoff := 0, stride := 32, steps := 32, k := 1, fb := 3,
                        handle := 0, rt := 32, tiles := [0] }
    let run (m : MCmd) : State := (matrix 3 0).modMe (fun c => { c with mrun := some m })
    let may (m : MCmd) (left : Bool) : Bool :=
      ((run m).col 0).mrun == some m && ((run m).col 0).mayRun m && decide (m.due ≤ ((run m).col 0).cycle) &&
        m.out.isEmpty && m.stepsLeft == left
    let b (op : MOp) (step : Nat) : MCmd := { mcmd op with begun := true, step := step }
    (ops.all (fun op =>
      let m := mcmd op
      let s := (matrix 3 0).modMe (fun c => { c with mq := [m] })
      (s.col 0).mrun == none && (s.col 0).mq == [m] && (s.col 0).firing m.band == some firing && (s.col 0).mayRun m &&
        !s.afterReqs 0 m)) = true ∧
    (may (b (.mma 0 [g]) 0) true && may (b (.store 0 0 3 32 none false 0) 31) true && may (b (.seedx 5 0x800 0x1000) 0) true &&
      may (b (.seedfit 5 0x1000 14 0x800 9) 0) true && may (b (.seedfit 5 0x1000 14 0x800 9) 1) true) = true ∧
    ceilDiv (2 ^ 9) 256 = 2 ∧ [g][(mcmd (.mma 0 [g])).grp]? = some g ∧ base.proctor.rtPause.contains (dieOf 0) = false ∧
    { mcmd (.store 0 0 3 32 none false 0) with out := [(0, [1, 2])] }.out ≠ [] ∧
    (may (b (.zero 0 false) 0) false && may (b (.prom 0) 0) false && may (b (.scale 0 0 0x800 false) 0) false &&
      may { b (.mma 0 [g]) 0 with grp := 1 } false && may (b (.store 0 0 3 32 none false 0) 32) false &&
      may (b (.read 0 4 0 0 0 0 false) 0) false && may { b (.seedx 5 0x800 0x1000) 0 with res := some 7 } false &&
      may { b (.seedfit 5 0x1000 14 0x800 9) 2 with res := some 7 } false) = true := by decide +kernel
/-- A step of an integer tile whose element 0 is at the upper end of its inner range and that adds 1 to it promotes first; once it
has promoted, and at a smaller value, it steps; a float tile steps. -/
theorem test_MatrixUnit_promotion :
    let g : MGroup := { sag := 0, row0 := 0, rows := 32, fa := 3, acol := 0, aoff := 0, stride := 32, steps := 32, k := 1, fb := 3,
                        handle := 0, rt := 32, tiles := [0] }
    let m : MCmd := { mcmd (.mma 0 [g]) with begun := true }
    let ends (x : Int) (fl : Bool) (m : MCmd) : Bool :=
      let s := (matrix 3 0).modMe (fun c => { c with
        mrun := some m, ls := [(0, 1)], stack := [(0, 1)], tiles := [(0, { Tile.zero with inner := [(0, x)], fl := fl })] })
      let q := (s.fetchGrans 0 m g.acol (g.grans g.ais (m.ks g))).1
      let old := (s.col 0).tile 0
      (old.stepInt (s.col 0).promo (((s.col 0).stepData q g).ints g)).2.1 && !old.fl && !m.promoted
    ends (2 ^ 23 - 1) false m = true ∧ ends (2 ^ 23 - 2) false m = false ∧ ends (2 ^ 23 - 1) false { m with promoted := true } = false ∧
    ends 0 true m = false := by decide +kernel
/-- A row of the group at each end of a tile, and one outside it. -/
theorem test_MatrixContributions :
    let g : MGroup := { sag := 0, row0 := 4, rows := 28, fa := 3, acol := 0, aoff := 0, stride := 32, steps := 32, k := 1, fb := 3,
                        handle := 0, rt := 32, tiles := [0] }
    let x : StepData := { rows := [], as := List.replicate 28 [(1, false)] }
    x.as.length = g.rows ∧ g.row0 + g.rows ≤ 32 ∧ (g.row0 ≤ 4 ∧ 4 < g.row0 + g.rows) ∧ (g.row0 ≤ 31 ∧ 31 < g.row0 + g.rows) ∧
    ¬ g.row0 ≤ 3 ∧ (List.replicate 1024 (none : Option (Val × Nat))).length = 1024 := by decide +kernel
/-- Contributions at the bound's edge. -/
theorem test_MatrixIntegerExact : (List.replicate 1024 (2 ^ 17 - 1 : Int)).length = 1024 ∧ Tile.zero.fl = false ∧
    (∀ v ∈ List.replicate 1024 (2 ^ 17 - 1 : Int), -(2 ^ 17) < v ∧ v < 2 ^ 17) := by decide +kernel
theorem test_MatrixIntegerExact_noSaturation :
    (Tile.zero.stepInt 256 (List.replicate 1024 (2 ^ 17 - 1 : Int))).2.2 = false := by decide +kernel

/-! ### Engines -/

/-- x1 and x2 addresses of the own local store, x3 a length, a key or an index, x4 an entry's base. -/
def engines (x3 : Nat) : State :=
  withX [(1, localAddr 0x400), (2, localAddr 0x800), (3, w64 x3), (4, 0x10000), (5, w64 (2 ^ 20))]
/-- The descriptor of a template on channel 3 that signals channel 5 of column 1; one for the LSE; a list of operands. -/
def copyDesc : Nat := 0xF000000000000100 + 0xF000000000000200 * 2 ^ 64 + 64 * 2 ^ 128 + 3 * 2 ^ 168 + 5 * 2 ^ 175
def fillDesc (op : Nat) : Nat :=
  op + 0xF000000000000000 * 2 ^ 128 + (if op = 0 then 3 * 2 ^ 229 + 2 ^ 244 else if op = 2 then 8 * 2 ^ 233 else 0)
def withTemplate (t : Template) : State := withCol (fun c => c.setTpl 0 t)
def template : Template := { Template.empty with trig := 3, doneKey := outKey 1 5 }
def ktb (idx : Option Nat) : Nat × Ktb := (0, { sid := 0, b := 0, idx := idx, owner := 7 })

def copy (op : COp) : CCmd := { id := 9, band := 0, tmpl := none, tepc := 0, op := op, flow := Flow.start, parked := none }

theorem test_EngineIssue_copies :
    let s := engines 64
    let full := s.modMe (fun c => { c with copyq := [copy (.lswap 0), copy (.lswap 0)] })
    s.ready [.x 1, .x 2, .x 3] = true ∧ errorWith (copyCheck 0 (s.X 1) (s.X 1) 64 false) (fun _ => true) = true ∧
    exceptWith (copyCheck 0 (s.X 1) (s.X 2) 64 false) (fun x => !oddLen (s.copyKind 0 x 64) 64 && !s.mxWait true (x.dstLocs 64) &&
      !s.mxWait false (x.srcLocs 64)) = true ∧
    s.me.copyWaiting s.me.band < 2 ∧ ¬ full.me.copyWaiting full.me.band < 2 ∧
    (let c : Tlb := { va := 0, bits := 30, pa := 0, w := true, cmp := true, h := false }
     let z : State := { s with dieTlb := [(0, [c])] }
     exceptWith (copyCheck 0 (s.X 1) 0 64 false) (fun x => oddLen (z.copyKind 0 x 64) 64) = true) := by decide +kernel
theorem test_EngineIssue_descriptors :
    let s := (engines 64).wrNat (.ls 0 0x400) 32 copyDesc
    let t := s.modMe (fun c => c.setTpl 0 template)
    let l := (engines 64).wrNat (.ls 0 0x400) 32 (fillDesc 0)
    exceptWith (engAddr s.cur (s.X 1) ownRaw 32 32) (fun x => x.off == 0x400) = true ∧ s.quiet ∧ l.quiet ∧ s.ready [.x 1, .x 6] = true ∧
    errorWith (engAddr s.cur (s.X 6) ownRaw 32 32) (fun _ => true) = true ∧
    exceptWith (copyCheck 0 (descDst copyDesc) (descSrc copyDesc) (descLen copyDesc) (bitN copyDesc 160)) (fun _ => true) = true ∧
    errorWith (copyCheck 0 (descDst 0) (descSrc 0) (descLen 0) (bitN 0 160)) (fun _ => true) = true ∧
    (engines 64).rdNat (.ls 0 0x400) 32 = 0 ∧ s.rdNat (.ls 0 0x400) 32 = copyDesc ∧
    descOk (t.me.tpl 0) copyDesc = true ∧ descOk (s.me.tpl 0) copyDesc = false ∧
    l.rdNat (.ls 0 0x400) 32 = fillDesc 0 ∧ l.lseOk 0 (fillDesc 0) = true ∧ l.lseOk 0 copyDesc = false ∧
    l.me.copyWaiting l.me.band < 2 := by unfold State.quiet; decide +kernel
theorem test_EngineIssue_kv :
    let s := engines (2 ^ 47 - 4)
    let k := s.modMe (fun c => { c with ktb := [ktb (some 3)] })
    let busy := s.modMe (fun c => { c with ktb := [ktb none] })
    let cmd : KCmd := { id := 5, band := 0, tepc := 0, op := .pop, flow := Flow.start, tab := false, parked := none }
    let full := s.modMe (fun c => { c with kvq := [cmd, cmd, cmd] })
    let counted : State := { s with kvcnt := 1 }
    s.ready [.x 1, .x 2, .x 3] = true ∧ exceptWith (engAddr s.cur (s.X 1) ownRaw 64 64) (fun c => c.off == 0x400) = true ∧
    (s.X 3).toNat < 2 ^ 47 ∧ (s.X 3).toNat % 4 = 0 ∧ 2 ^ 16 ≤ (2 ^ 32 - 1) / (4096 / (64 * 2 ^ 6)) ∧ 0 / (4096 / 64) < 2 ^ 16 ∧
    s.mxWait false (lsLocs 0 0x400 64) = false ∧ errorWith (engAddr s.cur (s.X 6) ownRaw 64 64) (fun _ => true) = true ∧
    2 ^ 47 ≤ ((engines (2 ^ 47)).X 3).toNat ∧ ((engines 2).X 3).toNat % 4 ≠ 0 ∧
    ((ktbFind k.me.ktb 0 0).bind (ktbAt k.me.ktb)).isSome = true ∧ k.kvFull = false ∧ full.kvFull = true ∧
    (ktbFind s.me.ktb 0 0).bind (ktbAt s.me.ktb) = none ∧ 1 % (4096 / 64) ≠ 0 ∧ 0 % (4096 / 64) = 0 ∧
    (s.me.ktbPut 0 0 none s.nextId).isSome = true ∧ s.kvcnt ≤ 0 ∧ 0 < counted.kvcnt ∧ counted.kvcnt ≤ 1 ∧
    (s.me.ktbPut 0 0 (some 0) 0).isSome = true ∧
    (ktbFind busy.me.ktb 0 0).bind (ktbAt busy.me.ktb) = some (ktb none).2 ∧ (ktb none).2.idx = none ∧
    (∃ e ∈ busy.me.ktb, e.2.idx = none) ∧ (∀ e ∈ k.me.ktb, e.2.idx ≠ none) := by decide +kernel
def scmd (op : SOp) : SCmd :=
  { id := 9, band := 0, tepc := 0, op := op, parked := none, todo := none, flow := Flow.start, res := none, reached := false }
theorem test_EngineIssue_states :
    let s := withX [(1, localAddr 0x1000), (2, 0)]
    s.ready [.x 1, .x 2, .x 3] = true ∧ s.ready [.x 2, .x 3] = true ∧ s.ssFull = false ∧
    exceptWith (engAddr s.cur (s.X 1) ownRaw 64 4096) (fun c => c.off == 0x1000) = true ∧
    errorWith (engAddr s.cur (s.X 2 + 1) ownRaw 64 4096) (fun _ => true) = true ∧
    (s.modMe (fun c => { c with ssq := [scmd (.drop 0), scmd (.drop 0), scmd (.drop 0)] })).ssFull = true ∧
    s.mxWait true (lsLocs 0 0x1000 4096) = false ∧ s.mxWait false (lsLocs 0 0x1000 4096) = false := by decide +kernel

theorem clean_one (s : State) (h : s.cols = [(0, s.col 0)]) (h0 : (s.col 0).lsFlip = []) (g : s.gdFlip = []) : s.clean := by
  refine ⟨fun p => ?_, g⟩
  show (sget Column.reset s.cols p).lsFlip = []
  rw [h]
  unfold sget
  split
  · exact h0
  · rfl
theorem test_CopyPort :
    let k := copy (.cpy (localAddr 0x400) (localAddr 0x800) 64 (some 5) 0)
    let hi := { k with id := 10, band := 1 }
    let s := withCol (fun c => { c with copyq := [k] })
    let p := withCol (fun c => { c with copyq := [hi], crun := some k })
    let r := withCol (fun c => { c with crun := some k })
    let f := withCol (fun c => { c with crun := some (copy (.cpy (localAddr 0x400) 0x1000 64 none 0)) })
    let it := item (msg 0 0) none
    let t := (withTemplate { template with desc := some copyDesc }).modMe (fun c =>
      c.setChan 3 { Chan.empty with slots := 4, items := [it] })
    (s.col 0).copyBest (fun j => s.cmdHeld 0 j.band j.id) = some k ∧ (s.col 0).crun = none ∧ (p.col 0).copyBest (fun j => p.cmdHeld 0 j.band j.id) = some hi ∧ (p.col 0).crun = some k ∧ k.band < hi.band ∧
    (r.col 0).crun = some k ∧ k.parked = none ∧ k.tmpl = none ∧ k.flow = Flow.start ∧ r.clean ∧
    exceptWith (copyCheck 0 (localAddr 0x400) (localAddr 0x800) 64 true) (fun x => x.global.isNone) = true ∧
    exceptWith (copyCheck 0 (localAddr 0x400) 0x1000 64 false) (fun x => x.global == some (0x1000, false) &&
      (let j := f.copyJob 0 (copy (.cpy (localAddr 0x400) 0x1000 64 none 0)) x 64
       !oddLen j.1 64 && (j.2.run { st := f, flow := { Flow.start with mode := j.1 }, fault := none }).fault.elim false
         (fun e => e.1 != 0x10A))) = true ∧
    ((t.col 0).tpl 0).desc = some copyDesc ∧ ((t.col 0).chan ((t.col 0).tpl 0).trig).items = [it] ∧
    ((t.col 0).tpl 0).running = none ∧ it.taken = none ∧ it.msg.kind = 0 ∧ ((t.col 0).out ((t.col 0).tpl 0).doneKey).paced = false ∧
    (let ds := offsetSides 0 0 (descDst copyDesc) (descSrc copyDesc)
     exceptWith (copyCheck 0 ds.1 ds.2 (descLen copyDesc) (bitN copyDesc 160)) (fun x => x.global.isNone &&
       !oddLen (t.copyKind 0 x (descLen copyDesc)) (descLen copyDesc))) = true ∧ bitN copyDesc 164 = false ∧
    (((withTemplate { template with token := some 64 }).col 0).tpl 0).token = some 64 ∧ (base.col 0).inj.length < 32 := by
  refine ⟨by decide +kernel, by decide +kernel, by decide +kernel, by decide +kernel, by decide +kernel, by decide +kernel,
    by decide +kernel, by decide +kernel, by decide +kernel, clean_one _ (by decide +kernel) (by decide +kernel) (by decide +kernel), ?_⟩
  decide +kernel
/-- Handle 0 of column 0, valid, and LSE commands for it. -/
def lse (l : List LCmd) : State :=
  (mapped (withCol (fun c => { c with htab := [(0, { Handle.empty with fmt := 3, valid := true, len := 1, src := some 0 })] }))).setLse 0 l
theorem test_LayerSwap :
    let k := copy (.lswap (fillDesc 0))
    let a := withCol (fun c => { c with copyq := [k] })
    let b := withCol (fun c => { c with copyq := [copy (.lswap (fillDesc 1))] })
    (a.col 0).lswapNext (fun j => a.cmdHeld 0 j.band j.id) = some (k, fillDesc 0) ∧ (a.lseList (dieOf 0)).length < 64 ∧ a.proctor.power = .run ∧
    (lse []).proctor.power = .run ∧ a.lseReason (fillDesc 0) = none ∧
    dieOf (lCol (fillDesc 0) % 256) = dieOf 0 ∧ (b.col 0).lswapNext (fun j => b.cmdHeld 0 j.band j.id) = some (copy (.lswap (fillDesc 1)), fillDesc 1) ∧
    b.lseReason (fillDesc 1) = some 1 ∧
    ([0, 1].all (fun op =>
      let w := lseCmd (fillDesc op) false false
      let r := lseCmd (fillDesc op) true false
      let s := lse [r]
      (lse [w]).lseReady w && lOp w.desc == op && s.gdFlip.isEmpty && ((s.col r.col).handle r.h).inuse == 0 &&
        (match s.lseKind r with | .ok n => n == 0 | _ => false) && (s.lseRange r).1 < (s.lseRange r).2 &&
        (match s.reach (dieOf r.col) 6 (s.lseSource r + (s.lseRange r).1) false with | .ok l => l == .gd 0 | _ => false) &&
        !s.inBacking 0 (s.lseSource r + (s.lseRange r).1) [.gd 0])) = true ∧
    (let m := lseCmd (fillDesc 2) false false
     ((lse [m]).lseList 0)[0]? = some m ∧ m.failed = false ∧ m.parked = none ∧ m.switched = false ∧ lOp m.desc = 2 ∧
     ((lse [m]).lsePair m.col m.h).head?.map (·.id) = some m.id ∧ (lse [m]).proctor.rtPause.contains 0 = false) ∧
    (let d := lseCmd (fillDesc 0) true true
     ((lse [d]).lseList 0)[0]? = some d ∧ d.switched = true ∧ d.stamp = some 0xF000000000000000 ∧
     (decodeAddr d.owner 0xF000000000000000).elim true Acc.glob = false ∧
     (decodeAddr d.owner 0x1000).elim false Acc.glob = true ∧ exceptWith ((lse []).reach 0 6 0x1000 true) (· == .gd 0x1000) = true) := by
  decide +kernel

def block : SBlock := { sid := 1, layer := 0, pos := 8, unit := 0, snaps := [(8, 0)] }
def kcmd (op : KOp) : KCmd := { id := 9, band := 0, tepc := 0, op := op, flow := Flow.start, tab := false, parked := none }
def freeList : State := { mapped base with kvcnt := 4, flCount := 2, flbase := 0x2000, ssbase := 0x100000, sslen := 0x10000 }
theorem test_KvFreeList :
    let n := freeList
    let u : Tlb := { va := 0, bits := 30, pa := 0, w := true, cmp := false, h := false }
    let app : KOp := .append 0x400 0 0 0 0 0x10000 false (some 1)
    let kv (op : KOp) : State := { n with dieTlb := [(0, [u])] }.modMe (fun c => { c with kvq := [kcmd op] })
    ((kv app).col 0).kvq = [kcmd app] ∧ (kcmd app).parked = none ∧ (kcmd app).flow = Flow.start ∧
    (List.range 64).all (fun i => (kv app).cachedE (dieOf 0) ((kv app).kvbase + 4096 * 1 + 64 * 0 + i) == some u) = true ∧
    (kv app).cmdHeld 0 0 9 = false ∧ (kv app).flStuck = none ∧ (kv app).flPushes = [] ∧
    (kv app).kvbase + 4096 * 1 + 64 * 0 + 64 ≤ 2 ^ 47 ∧
    (let own : KOp := .append 0x400 0 0 0 0 0x10000 true none
     let low := (kv own).wrNat (.gd 0x2000) 4 3
     let high := (kv own).wrNat (.gd 0x2000) 4 4
     ((kv own).col 0).kvq = [kcmd own] ∧ 0 < (kv own).flCount ∧ (kv own).flParked = [] ∧ (kv own).cmdHeld 0 0 9 = false ∧
     exceptWith (low.reach 0 5 (low.ringVa 0) false) (fun l => low.rdNat l 4 % 2 ^ 24 == 3) = true ∧ 3 < low.kvcnt ∧
     exceptWith (high.reach 0 5 (high.ringVa 0) false) (fun l => high.rdNat l 4 % 2 ^ 24 == 4) = true ∧ high.kvcnt ≤ 4) ∧
    u.cmp = false ∧ u.w = true ∧ ((kv app).col 0).lsFlip = [] ∧ ((kv .pop).col 0).kvq = [kcmd .pop] ∧
    base.flCount = 0 ∧ 0 < n.flCount ∧ n.flParked = [] ∧ 0 < n.kvcnt ∧
    exceptWith (n.reach 0 5 (n.ringVa 0) false) (fun _ => true) = true ∧ base.kvcnt ≤ base.flCount ∧ n.flCount < n.kvcnt ∧
    exceptWith (n.reach 0 5 (n.ringVa n.flCount) true) (fun _ => true) = true ∧
    (match n.walk (0x1000 % 2 ^ 47) true with | .leaf _ => true | _ => false) = true ∧
    (match base.walk (0x1000 % 2 ^ 47) true with | .fault _ _ => true | _ => false) = true := by decide +kernel

theorem test_StateStore :
    let s := freeList
    let ss (k : SCmd) : State := { s with blocks := [block, { block with layer := 1 }] }.modMe (fun c => { c with ssq := [k] })
    let next (d : Nat) (k : SCmd) : Bool := ((ss k).ssNext 0).1 == some (k, d)
    ([SOp.load 0x1000 2 0, .store 0x1000 2 0 9 false, .snap 2 0, .roll 2 0 9, .fork 3 2 0 9, .drop 2].all (fun op =>
      next 0 (scmd op))) = true ∧
    ([SOp.load 0x1000 1 0, .store 0x1000 1 0 7 true, .snap 1 0, .roll 1 0 9].all (fun op => next 1 (scmd op))) = true ∧
    (ss (scmd (.snap 2 0))).sblock 2 0 = none ∧ (ss (scmd (.snap 1 0))).sblock 1 0 = some block ∧
    exceptWith (s.reach (homeDie 1 0) 4 (s.ssbase + 4096 * 0) false) (fun _ => true) = true ∧
    exceptWith (s.reach (homeDie 1 0) 4 (s.ssbase + 4096 * 0) true) (fun _ => true) = true ∧
    7 < block.pos ∧ block.pos ≤ 8 ∧ (base.stateUnit (base.sblock 1 0)) = none ∧ (s.stateUnit (s.sblock 1 0)).isSome = true ∧
    (ss (scmd (.fork 1 2 0 0))).seqBlocks 1 ≠ [] ∧ (ss (scmd (.fork 3 2 0 0))).seqBlocks 3 = [] ∧
    (ss (scmd (.fork 3 2 0 0))).seqBlocks 2 = [] ∧ (ss (scmd (.drop 1))).seqBlocks 1 ≠ [] ∧ block.newest 9 = some (8, 0) ∧
    block.newest 7 = none ∧
    (next 0 { scmd (.fork 3 1 0 9) with todo := some ([1], 0, 0) } && next 0 { scmd (.drop 1) with todo := some ([1, 3], 0, 0) }) =
      true ∧ homeDie 1 1 = 0 := by decide +kernel
/-- A load that holds its state, to be written into its area. -/
theorem test_StateStore_load :
    let bs : List Byte := List.replicate 4096 1
    let k : SCmd := { scmd (.load 0x1000 2 0) with
      res := some 8, flow := { Flow.start with got := (List.range 512).map (fun g => (g, (bs.drop (8 * g)).take 8)) } }
    ((withCol (fun c => { c with ssq := [k] })).ssNext 0).1.isSome = true ∧ bs.length = 4096 ∧ k.flow.put = [] := by
  decide +kernel

/-! ### Firings and boundaries -/

/-- Column 0 with no firing, its handler 0 loaded, a message on channel 3 and credit for its output. -/
def waiting : State :=
  base.modMe (fun c => { c with running := none, region := 1, handlers := [(0, { phase := false, e0 := some entry, e1 := none })] }.setBank 0
    Bank.empty |>.setChan 3 { Chan.empty with slots := 4, producer := 1, items := [item (msg 0 0) none] }
    |>.setOut (outKey 1 5) { Output.empty with opened := true, cap := 4, credit := 2, paced := true })
def task : Entry := { entry with task := true, ins := [], counter := 0x40 }

/-- A message in flight on its route. -/
def flight (m : Msg) (path : List Hop) : Flight :=
  { msg := m, vc := 0, done := 0, rt := route, from_ := 0, path := path, probe := 0, origins := [], since := none }

theorem test_FiringSteps :
    let held := withCol (fun c => { c with running := none })
    let ending := withFire (fun f => { f with phase := .commit })
    let counts := withFire (fun f => { f with phase := .commit, ent := task })
    let abort (hold : Bool) := withFire (fun f => { f with phase := .abort 0x181 1 0 0 hold })
    waiting.select 0 = .start 0 ∧ (waiting.col 0).entry 0 = some entry ∧ (waiting.col 0).otherDue = false ∧ (waiting.col 0).mrun = none ∧
    (waiting.col 0).stepping.getLsbD 0 = false ∧ (entry.paced.map (fun o => outKey o.dest o.ch)).Nodup ∧
    held.select 0 = .resume 0 ∧ (held.col 0).firing 0 = some firing ∧ (held.col 0).running = none ∧ (held.col 0).otherDue = false ∧
    (ending.col 0).firing 0 = some { firing with phase := .commit } ∧ (ending.col 0).endIds 0 = [] ∧
    (ending.col 0).running = some 0 ∧ ending.loadsOut 0 0 = false ∧ (ending.col 0).inj.length + 0 + (ending.col 0).snapCopies 0 ≤ 32 ∧
    firing.snap = false ∧ firing.deferred = [] ∧ firing.ent.task = false ∧ (counts.col 0).firing 0 = some { firing with phase := .commit, ent := task } ∧
    task.task = true ∧ ((abort true).col 0).firing 0 = some { firing with phase := .abort 0x181 1 0 0 true } ∧
    ((abort false).col 0).firing 0 = some { firing with phase := .abort 0x181 1 0 0 false } ∧ firing.ent.hidx < 64 := by
  decide +kernel

theorem test_BoundarySteps :
    let spent := withFire (fun f => { f with spent := 0xFFFFFFFF })
    let d (path : Nat) : DTrap := { ord := 1, cause := 0x305, path := path, tval := 0, tepc := 0, aw := false }
    let due (path : Nat) := (withFire (fun f => { f with deferred := [d path] })).modMe (fun c => { c with tvec := 0x100040 })
    let starved := withCol (fun c => { c with starve := [(63, 65536)] })
    let lone := { withItems [item (msg 0 0) none] with pktCycle := 4096 }
    let wait : Wait := { since := 0, req := none, got := none }
    let waits := (withFire (fun f => { f with wait := some wait })).modBk (fun k => k.writeX 5 (localAddr 0x40))
    let far := (withFire (fun f => { f with wait := some wait })).modBk (fun k => k.writeX 5 0x1000)
    let here (w : Nat) := waits.wrNat (.ls 0 0) 4 w
    let tasks := (withCol (fun c => { c with handlers := [(0, { phase := false, e0 := some task, e1 := none })] })).wrNat (.ls 0 0x40) 8 5
    let marked := (withItems [item (msg 1 0) none]).modMe (fun c =>
      { c with handlers := [(0, { phase := false, e0 := some entry, e1 := none })] })
    let j : Join := { jidx := 0, sidx := 1, area := 0x100, units := 1, limit := 0,
                      cap := some { snapId := 1, ch := 3, since := 0, ready := false, fired := false, unal := false, committed := false,
                                    awaited := [], units := 0, ovf := false } }
    let snap := { msg 2 0 with pay := leBytes 8 1 ++ List.replicate 48 0 }
    let joins (l : List Item) (aligned : Bool) := (withItems l).modMe (fun c =>
      { c with joins := [{ j with cap := j.cap.map (fun k => { k with ready := aligned }) }],
               handlers := [(0, { phase := false, e0 := some entry, e1 := none })] })
    let joined := joins [item snap none] true
    let late := joins [] false
    let counts := { msg 3 0 with dest := 0, pay := leBytes 8 (0x40 + 0xFFFF * 2 ^ 32) ++ List.replicate 48 0 }
    let nothing := { msg 3 0 with dest := 0 }
    let sent (m : Msg) : State := { tasks with flights := [flight m [⟨0, false⟩]] }
    ((spent.col 0).firing 0).elim false (fun f => decide (f.ent.budget ≤ f.spent)) = true ∧ (spent.col 0).running = some 0 ∧
    (((due 0).col 0).firing 0).elim none (fun f => oldest f.deferred) = some (d 0) ∧ ((due 0).col 0).tvec.getLsbD 20 = true ∧
    firing.spent < firing.ent.budget ∧ ((due 0).col 0).inTrap = false ∧
    (let inside (n : Nat) := (withFire (fun f => { f with deferred := [d 0], trapFrom := n })).modMe (fun c => { c with inTrap := true })
     let own (n : Nat) := ((inside n).col 0).firing 0 |>.elim none (fun f => oldest (f.deferred.filter (fun x => decide (f.trapFrom ≤ x.ord))))
     ((inside 1).col 0).inTrap = true ∧ own 1 = some (d 0) ∧ own 2 = none) ∧ base.proctor.power ≠ .doze ∧
    (((due 2).col 0).firing 0).elim none (fun f => oldest f.deferred) = some (d 2) ∧ (d 2).path ≠ 0 ∧
    65536 ≤ sget 0 (starved.col 0).starve 63 ∧ (starved.col 0).boost.getLsbD 63 = false ∧
    ((lone.col 0).chan 3).items = [item (msg 0 0) none] ∧ (lone.col 0).owner 3 = none ∧ (lone.col 0).trigOf 3 = none ∧
    (lone.col 0).emptyRep.contains 3 = false ∧ (item (msg 0 0) none).tick + 4096 ≤ lone.pktCycle ∧
    ((waits.col 0).firing 0).elim none Firing.wait = some wait ∧
    exceptWith (decodeWord (BitVec.ofNat 32 ((here 0x4E605883).mem32 0 0))) (fun e => e.2 == .mwait 16 5 17 0 0 3) = true ∧
    exceptWith (decodeWord (BitVec.ofNat 32 ((here 0x4E1C5680).mem32 0 0))) (fun e => e.2 == .pbwait 14 5 13 0) = true ∧
    (decodeAddr 0 (((waits.col 0).bank (waits.col 0).bankIx).readX 5)).elim false Acc.isOwn = true ∧
    (decodeAddr 0 (((far.col 0).bank (far.col 0).bankIx).readX 5)).elim true Acc.isOwn = false ∧ ((far.col 0).cycle - wait.since) % 64 = 0 ∧
    (sent counts).atPort 0 (flight counts [⟨0, false⟩]) = true ∧ counts.isDecrement 0 0x40 0xFFFF = true ∧
    counts.ctx = ((sent counts).col 0).ctx ∧ 0x40 % 8 = 0 ∧ 0x40 ≤ 0xFFFF8 ∧
    (sent nothing).atPort 0 (flight nothing [⟨0, false⟩]) = true ∧ nothing.isDecrement 0 0 0 = true ∧
    (tasks.col 0).entry (fieldN (tasks.rdNat (.ls 0 0x40) 8) 61 56) = some task ∧ task.task = true ∧ task.counter = 0x40 ∧
    (base.col 0).entry (fieldN (base.rdNat (.ls 0 0x40) 8) 61 56) = none ∧
    ((marked.col 0).chan 3).items = [item (msg 1 0) none] ∧ (item (msg 1 0) none).msg.kind = 1 ∧ ((marked.col 0).chan 3).gate = [] ∧
    (marked.col 0).trigOf 3 = none ∧ (marked.col 0).owner 3 = some entry ∧ entry.inOf 3 = some ⟨3, 1, 1⟩ ∧ (marked.col 0).joins = [] ∧
    (marked.col 0).inj.length + ((marked.col 0).markerOuts 3).length ≤ 32 ∧
    (joined.col 0).join 0 = some { j with cap := j.cap.map (fun k => { k with ready := true }) } ∧ (late.col 0).join 0 = some j ∧
    (∀ k, j.cap = some k → k.fired = false ∧ k.unal = false ∧
      (∀ ch ∈ (joined.col 0).joinIns j, (joined.col 0).arrived k ch = true ∧ ((joined.col 0).chan ch).held = false) ∧
      ((late.col 0).joinIns j).filter (fun ch => !(late.col 0).arrived k ch) ≠ [] ∧ k.ready = false ∧
      k.since + j.limit ≤ late.pktCycle) := by
  decide +kernel

/-! ### The mesh -/

def sentMsg : Msg := { msg 0 0 with dest := 1, chan := 5, src := 0 }
def withFlights (l : List Flight) : State := { base with flights := l, routes := [route] }
def stage (kind : Nat) : Stage :=
  { region := 1, kind := kind, group := 1, efmt := 0, e := 1, off := 0, lim := 1, cmp := 0, ctype := 0, const := 0, outs := [route],
    loop := none, pair := 0, seq := 0, waiting := [], inflight := 1, stopped := false, opened := [], credits := [] }

theorem test_MeshSteps :
    let inj (i : Inj) : State := { withCol (fun c => { c with inj := [i] }.setOut (outKey 1 5)
      { Output.empty with opened := true, cap := 4 }) with routes := [route] }
    let slots (n : Nat) (s : State) : State := s.modCol 1 (fun c => c.setChan 5 { Chan.empty with slots := n })
    let here := flight sentMsg [⟨1, false⟩]
    let far := flight sentMsg [⟨0, false⟩, ⟨1, false⟩]
    let odd := flight { sentMsg with kind := 11 } [⟨0, false⟩, ⟨1, false⟩]
    let other := flight { sentMsg with ctx := 7 } [⟨1, false⟩]
    let old := { other with since := some 0 }
    let bound := { here with rt := { route with bnd := some (1, 2) }, probe := 1 }
    (inj (.msg sentMsg 0)).routeTo sentMsg.ctx 0 sentMsg.dest sentMsg.chan = some route ∧ route.filter = none ∧
    (((inj (.msg sentMsg 0)).col 0).outOf sentMsg.ctx (outKey 1 5)).opened = true ∧ (inj (.msg sentMsg 0)).storesDone 0 0 1 = true ∧
    (inj (.msg sentMsg 0)).bufferRoom 0 0 route.vc sentMsg.units = true ∧ ((inj (.msg sentMsg 0)).col 0).inj = [.msg sentMsg 0] ∧
    ((inj (.marker sentMsg 0 true)).col 0).inj = [.marker sentMsg 0 true] ∧
    (let x : Inj := .store [(0, [⟨.ls 1 0, 1, 255⟩])] 0 0 (some 4) 0 1
     ((inj x).col 0).inj = [x] ∧ (inj x).storesDone 0 4 (inj x).nextId = true) ∧
    (withFlights [odd]).behind 0 odd = false ∧ 11 ≤ odd.msg.kind ∧ odd.at_ < 256 ∧
    (withFlights [far]).behind 0 far = false ∧ far.msg.kind < 11 ∧ far.rt.bnd = none ∧
    (withFlights [far]).bufferRoom 0 1 far.vc far.units = true ∧ (withFlights [far]).linkBusy 0 0 1 far.vc = false ∧
    (withFlights [here]).atPort 0 here = true ∧ here.msg.kind ≠ 3 ∧ here.msg.ctx = ((withFlights [here]).col 1).ctx ∧ (((slots 0 (withFlights [here])).col 1).chan 5).slots < here.msg.units ∧
    (((slots 1 (withFlights [here])).col 1).chan 5).used + here.msg.units ≤ (((slots 1 (withFlights [here])).col 1).chan 5).slots ∧
    (withFlights [other]).atPort 0 other = true ∧ other.msg.ctx ≠ ((withFlights [other]).col 1).ctx ∧ (withFlights [other]).retired.contains (tagKey 7 1) = false ∧ other.since = none ∧
    (∀ x, old.since = some x → ¬ x + 6400 ≤ (withFlights [old]).pktCycle) ∧
    ({ withFlights [other] with retired := [tagKey 7 1] } : State).retired.contains (tagKey 7 1) = true ∧
    old.since = some 0 ∧ 0 + 6400 ≤ ({ withFlights [old] with pktCycle := 6400 } : State).pktCycle ∧ (withFlights [old]).claimed old = false ∧
    bound.rt.bnd = some (1, 2) ∧ bound.probe = 1 ∧ (∀ o ∈ bound.origins, (withFlights [bound]).storesDone o.1 2 o.2 = true) := by
  decide +kernel
theorem test_MeshSteps_stages :
    let enters := flight sentMsg [⟨1, true⟩]
    let carry := { stage 6 with loop := some { route with dest := 2 } }
    let c := { withFlights [enters] with stages := [(stageKey 1 0 0, carry)] }
    let longer := flight { sentMsg with len := 1, pay := List.replicate 120 0 } []
    let r (l : List (Nat × Flight)) : State := { base with groups := [(1, 3)], stages := [(stageKey 1 0 0, { stage 1 with waiting := l })] }
    let mem (l : List (Nat × Flight)) := takeAll ((r l).stageMembers { stage 1 with waiting := l }) l
    enters.path = [⟨1, true⟩] ∧ c.stageAt (stageKey 1 0 0) = some carry ∧ carry.kind = 6 ∧ some enters.rt ≠ carry.loop ∧
    c.behind 0 enters = false ∧ carry.inflight ≤ carry.lim ∧ carry.outs = [route] ∧ (∀ g ∈ c.flights, some g.rt ≠ carry.loop) ∧
    (∀ g ∈ dropAt c.flights 0, g.from_ = 256 + 1 → g.vc ≠ enters.vc) ∧ (r []).flights = [] ∧
    (r []).stageAt (stageKey 1 0 0) = some (stage 1) ∧ (stage 1).stopped = false ∧ stageCol (stageKey 1 0 0) = 0 ∧
    mem [(0, flight sentMsg []), (1, longer)] = some ([flight sentMsg [], longer], []) ∧ longer.msg.len ≠ sentMsg.len ∧
    mem [(0, flight sentMsg []), (1, flight sentMsg [])] = some ([flight sentMsg [], flight sentMsg []], []) ∧ sentMsg.isMarker = false := by decide +kernel
theorem test_Arrivals :
    let opened : State := { withFlights [] with opens := [⟨0, outKey 1 5, 4, 2, 0, false⟩], credits := [⟨0, outKey 1 5, 1⟩] }
    let direct : Open := ⟨0, outKey 1 5, 4, 2, 0, true⟩
    let n : FaultRec := { cause := 0x18D, path := 1, col := 0, ctx := 0, rseq := 0, tval := 0, tmsg := 0, tepc := 0 }
    let ring : State := ({ base with notices := [n] } : State).setRq 8 { RQueue.reset with en := true, log2n := 4 }
    opened.feeder 0 1 5 = .col 0 (outKey 1 5) ∧ (opened.col 0).inj = [] ∧ (opened.col 0).ctx = 0 ∧ direct.direct = true ∧
    (opened.col (p8 (outKey 1 5 / 128))).ctx = 0 ∧
    ((waiting.col 0).outOf 0 (outKey 1 5)).paced = true ∧ (waiting.col 0).inj = [] ∧
    ring.notices[0]? = some n ∧ (ring.rqOf 8).full = false ∧ (({ base with notices := [n] } : State).rqOf 8).full = true ∧
    class300 n.cause = false ∧ class300 0x304 = true ∧ ({ base with confs := [.entry 0 task] } : State).confs[0]? = some (.entry 0 task) := by decide +kernel

/-! ### Launches -/

/-- The smallest image: a header, one section, one subgraph item of column 0; `flags` are header bits [63:48]. -/
def image (flags : Nat) : List Byte :=
  leBytes 64 (0x31534C4D + 2 ^ 32 + flags * 2 ^ 48 + 128 * 2 ^ 64 + 2 ^ 96 + 2 ^ 128) ++
  leBytes 16 (8 + 80 * 2 ^ 32 + 2 ^ 64) ++ leBytes 48 (2 ^ 128)
/-- A packet in queue 0 for the image at 0x10000, with this operation; the image in die 0's cache. -/
def queued (op flags : Nat) (cached : Bool) : State :=
  let pk := leBytes 64 (op + 0x10000 * 2 ^ 64 + (if op = 2 then 5 * 2 ^ 216 else 0))
  let s := { State.reset with proctor := { State.reset.proctor with power := .run, begun := true } }
  { s.setLq 0 { LQueue.reset with en := true, log2n := 4, head := 1, tail := 1, pkt := some pk } with
    cache := if cached then [{ die := 0, image := 0x10000, bytes := image flags, used := 0, doomed := false }] else [] }
def region (id ctx : Nat) : Region :=
  { id := id, ctx := ctx, queue := 0, seq := 0, tag := 0, cq := 0, irq := false, endcnt := 1, commits := 1, cols := 1, image := 0x10000,
    map := 0, predId := 0, readAt := 0, loaded := 0, urgent := false, chained := false, pred := none, subs := [], groups := [], bells := [], start := some 0, dying := false,
    msgs := [] }
/-- What the dispatcher takes from queue 0, with its verdict. -/
def taken (s : State) (op : Nat → Bool) (v : State → Nat → Bool) : Bool :=
  match s.take 0 op with
  | some (u, pk) => v u pk
  | none => false

theorem test_Splice :
    let s := { queued 2 2 true with regions := [region 1 5] }.modCol 0 (fun c => { c with region := 1, ctx := 5 })
    let w : Wave := { col := 0, src := 1, chan := 3, ctx := 7, seq := 0 }
    let p := ({ queued 3 0 true with regions := [region 1 5, { region 2 7 with pred := some 5, predId := 1 }] } : State).modCol 0 (fun c =>
      { c with region := 1, ctx := 5, nextTag := 7, waves := [(waveKey sourceWave 0x3FF, 0)] })
    taken s (· == 2) (fun u pk => u.verdict 0 pk == .load 0 && (u.cachedAt (pkImage pk) 0).isSome && (u.predOf 0 (pkPred pk)).isSome) = true ∧
    ({ base with wavefronts := [w] } : State).wavefronts[0]? = some w ∧
    base.regions.any (fun r => r.ctx == w.ctx && r.pred.isSome && r.predId == (base.col (w.col % 256)).region) = false ∧
    p.regions.any (fun r => r.ctx == w.ctx && r.pred.isSome && r.predId == (p.col (w.col % 256)).region) = true ∧ p.maySwitch 0 = true ∧
    p.regions.find? (fun r => r.ctx == (p.col 0).nextTag && r.predId == (p.col 0).region) =
      some { region 2 7 with pred := some 5, predId := 1 } ∧ (p.ldRegion { region 2 7 with pred := some 5, predId := 1 }).isSome = true := by decide +kernel

theorem test_HostQueues :
    let s := queued 0 0 true
    let f := (queued 1 0 false).wrBytes (.gd 0x10000) (image 0)
    let bad := (queued 1 0 false).wrBytes (.gd 0x10000) (image 4)
    let g : State := { State.reset with regions := [region 1 5] }
    let d : State := { g with regions := [{ region 1 5 with dying := true }] }
    let e := g.modCol 0 (fun c => { c with region := 1 })
    let sp : State := { g with regions := [region 1 5, { region 2 7 with pred := some 5, predId := 1 }] }
    s.proctor.power ≠ .off ∧ s.proctor.power ≠ .recovery ∧ State.reset.proctor.power = .boot ∧
    aheadOf 17 (s.lqOf 0).head ≤ 2 ^ (s.lqOf 0).log2n ∧ 2 ^ (s.lqOf 0).log2n < aheadOf 18 (s.lqOf 0).head ∧
    (0x20 : Word).getLsbD 5 = true ∧ (State.reset.lqOf 0).en = false ∧ (0 : Word).getLsbD 5 = false ∧ (s.lqOf 0).en = true ∧
    taken (queued 1 0 true) (· == 1) (fun u pk => u.verdict 0 pk == .load 0 && (u.cachedAt (pkImage pk) 0).isSome) = true ∧
    taken (queued 3 0 true) (· == 3) (fun u pk => u.verdict 0 pk == .done 0 0 0) = true ∧
    taken (queued 0 0 true) (fun op => op == 0 || decide (3 < op)) (fun _ _ => true) = true ∧
    taken (queued 4 0 true) (fun op => op == 0 || decide (3 < op)) (fun _ _ => true) = true ∧
    (f.pull.packetOf 0).elim false (fun pk => f.pull.verdict 0 pk == .fetch [0] && pkImage pk == 0x10000) = true ∧
    f.pull.nextFetch = some 0 ∧ bad.pull.nextFetch = some 0 ∧ ({ s with msixTable := [] } : State).masked 9 = false ∧ s.masked 9 = true ∧
    (bad.pull.packetOf 0).elim false (fun pk => match bad.pull.verdict 0 pk with
      | .reject st c _ => c != 0 && decide (st < 2 ^ 8) | _ => false) = true ∧ (bad.pull.lqOf 0).seq < 2 ^ 16 ∧
    0x10000 + (f.rdBytes (.gd 0x10000) (imgLen (f.rdBytes (.gd 0x10000) 64))).length ≤ f.capacity ∧
    imageCheck (f.rdBytes (.gd 0x10000) (imgLen (f.rdBytes (.gd 0x10000) 64))) f.proctor.chainPos = none ∧
    (imageCheck (bad.rdBytes (.gd 0x10000) (imgLen (bad.rdBytes (.gd 0x10000) 64))) bad.proctor.chainPos).isSome = true ∧
    (f.cache.filter (fun c => c.die == 0)).length < 16 ∧
    d.regionOf 1 = some { region 1 5 with dying := true } ∧ d.commandsLeft (d.regionCols 1) = false ∧
    sp.regionOf 1 = some (region 1 5) ∧ (region 1 5).dying = false ∧ sp.splicing (region 1 5) = true ∧ sp.regionCols 1 = [] ∧
    sp.sentLeft (region 1 5) = false ∧ (region 1 5).pred = none ∧ (region 1 5).tag < 2 ^ 16 ∧ (region 1 5).queue < 64 ∧
    (region 1 5).seq < 2 ^ 16 ∧ g.splicing (region 1 5) = false ∧
    e.regionCols 1 = [0] ∧ (region 1 5).endcnt ≠ 0 ∧ (region 1 5).endcnt ≤ (region 1 5).commits ∧ e.messagesLeft [0] 5 = false ∧
    e.commandsLeft [0] = false ∧ (s.rqOf 8).waiting = [] ∧ (s.rqOf 8).en = false ∧
    ((s.setRq 8 { RQueue.reset with en := true }).rqOf 8).en = true := by decide +kernel

theorem test_HostRegisters :
    let s := mapped base
    let n : State := { s with kvcnt := 4, flbase := 0x2000 }
    s.proctor.power ≠ .off ∧ s.proctor.power ≠ .recovery ∧ s.kvcnt ≤ 0 ∧ 3 < n.kvcnt ∧ n.kvcnt ≤ ({ n with flCount := 4 } : State).flCount ∧
    (let stopped : State := { n with flPushes := [(1, some (0x108, 5))], flStuck := some (0x3FF, 0) }
     stopped.fleStuck.isSome = true ∧ 3 < stopped.kvcnt) ∧ n.flStuck = none ∧ n.flPushes = [] ∧ n.proctor.power ≠ .doze ∧
    n.flCount < n.kvcnt ∧ exceptWith (n.reach 0 5 (n.ringVa n.flCount) true) (fun _ => true) = true ∧ s.barGot = [] ∧ s.barPut = [] ∧
    (let w : State := { s with lseWin := [(1, 0), (2, 0xF000000000000000), (3, 0)] }
     let v : Word := w64 (fillDesc 0 / 2 ^ 192)
     let desc := ({ w with lseWin := sput 0 w.lseWin 3 v.toNat } : State).winDesc 0
     dieOf (lCol desc % 256) = 0 ∧ w.lseOk (lCol desc % 256) desc = true) ∧
    (let w : State := { s with lseWin := [(4, 0)] }
     dieOf (lCol (w.winDesc 1) % 256) ≠ 1) ∧
    (∀ r ∈ s.regions, r.image ≠ 0) ∧ sorted none s.cols = true ∧
    (2 ^ 28 - 8) + 8 ≤ 2 ^ s.bar2 ∧ s.window + (2 ^ 28 - 8) + 8 ≤ s.capacity ∧ s.blocks = [] ∧ s.gdFlip = [] ∧ (63 : Nat) < 64 := by
  decide +kernel

/-! ### The Proctor and the whole package -/

/-- FRES words: action a, column 0, band or handler 0. -/
def fresWord (a : Nat) : Word := w64 (a * 2 ^ 16)
/-- Column 0 in a loaded region with context tag 0, its firing parked on an access. -/
def parked : State :=
  { (withFire (fun f => { f with park := some (.access 0x108 5) })).modMe (fun c => { c with region := 1 }) with regions := [region 1 0] }

theorem test_FaultResolution :
    let busy : State := { base with reqs := [request (.store []) none .sent], fresWait := [1] }
    let pushes : Word := w64 (0x3FF + 2 ^ 16)
    parked.proctor.power ≠ .off ∧ parked.proctor.power ≠ .recovery ∧ busy.fresBusy = true ∧ parked.fresBusy = false ∧
    ([0, 1, 2, 3, 4, 5, 6, 7].all (fun a => fresAction (fresWord a) == a)) = true ∧ base.killed (fresWord 4) = none ∧
    parked.killed (fresWord 4) = some (region 1 0) ∧ sorted none parked.cols = true ∧ 0 ∈ parked.regionCols 1 ∧
    parked.namedCol (fresWord 0) = some 0 ∧
    (parked.col 0).firing 0 = some { firing with park := some (.access 0x108 5) } ∧
    (parked.col 0).parkedFault 0 = some (0x108, 5) ∧ firing.phase = .run ∧
    (∀ k ∈ (parked.col 0).kvq, k.parked.isSome = true → k.band = 0) ∧ fresCol (fresWord 0) ≠ 0x3FF ∧ fresAction pushes = 1 ∧
    fresCol pushes = 0x3FF ∧ base.proctor.chainPos < 3 ∧ base.fresBusy = false ∧ base.fleStuck ≠ some 0x3FF ∧
    (let stopped : State := { base with flPushes := [(1, some (0x108, 5))], flStuck := some (0x3FF, 0) }
     stopped.fresBusy = false ∧ stopped.fleStuck = some 0x3FF ∧ stopped.proctor.chainPos < 3) ∧
    (parked.col 0).region ≠ 0 ∧ (parked.col 0).bandOf (fresHidx (fresWord 2)) = some 0 := by decide +kernel

def power (p : Power) (wake : Bool) : State := { base with proctor := { base.proctor with power := p, wake := wake } }
/-- A mailbox command: operation, with GO. -/
def go (op : Nat) (rest : Nat := 0) : Word := w64 (op + 2 ^ 63 + rest)

theorem test_PowerUp :
    (power .boot false).proctor.power = .boot ∧ (power .boot false).proctor.begun = true ∧
    (power .doze true).proctor.power = .doze ∧ (power .doze true).proctor.wake = true ∧
    (go 6).getLsbD 63 = true ∧ base.proctor.mbstat.getLsbD 63 = false ∧ fieldW (go 6) 7 0 = 6 ∧ fieldW (go 7) 7 0 = 7 ∧
    base.proctor.power = .run ∧ parked.regions ≠ [] ∧ (power .run false).dozeBusy = false ∧ sorted none base.cols = true := by
  decide +kernel

/-- One word per operation, each argument check at its edge, and the states in which commands are admitted. -/
theorem test_Mailbox :
    let latch : Latched := { cols := base.cols, reqs := base.reqs, lse := base.lse, other := 3 }
    let armed : State := { base with proctor := { base.proctor with armed := some 1, capture := some latch } }
    let inj (v : Nat) : State := { base with proctor := { base.proctor with mbbuf := (List.range 8).foldl (fun m i => sput 0 m i (BitVec.ofNat 8 (v / 2 ^ (8 * i)))) [] } }
    (go 0xFF).getLsbD 63 = true ∧ opKnown 0xFF = false ∧ base.proctor.mbstat.getLsbD 63 = false ∧ base.proctor.power ≠ .off ∧
    ([1, 2, 3, 4, 5, 0x10, 0x11, 0x12, 0x13, 0x14, 0x15, 0x16].all (fun op => fieldW (go op) 7 0 == op)) = true ∧
    (power .recovery false).proctor.power = .recovery ∧ (power .boot false).proctor.power ≠ .recovery ∧
    fieldW (go 3) 57 56 = 0 ∧ fieldW (go 3 (2 ^ 56)) 57 56 = 1 ∧ mbLen (go 3 (2 ^ 56)) ≤ 4096 ∧ mbLen (go 3 (4097 * 2 ^ 16)) = 4097 ∧
    fieldW (go 3 (2 ^ 56)) 55 32 + mbLen (go 3 (2 ^ 56)) ≤ slotBytes 1 ∧
    fieldW (go 4 (3 * 2 ^ 32)) 33 32 = 3 ∧ fieldW (go 4 (2 ^ 32)) 33 32 = 1 ∧
    armed.proctor.armed = some 1 ∧ bitN 1 0 = true ∧ bitN 2 0 = false ∧ armed.proctor.capture = some latch ∧ 256 ≤ mbArg (go 0x13 (256 * 2 ^ 32)) ∧
    base.proctor.capture = none ∧ mbArg (go 0x13) < 256 ∧
    72 ≤ fieldN (leNat ((inj (72 * 2 ^ 44)).mbBytes 8)) 50 44 ∧ fieldN (leNat ((inj (71 * 2 ^ 44)).mbBytes 8)) 50 44 < 72 ∧
    bitN (leNat ((inj (71 * 2 ^ 44)).mbBytes 8)) 58 = false ∧
    ((base.col 0).injectAt ({ Handle.empty with valid := true, len := 1, fmt := 3 }) 0 0).isSome = true := by decide +kernel

theorem test_Telemetry :
    let p := { base.proctor with usec := 259200000000, armed := some 7, rtPause := [1], rtEnd := [(1, 4800)], rtDue := [(0, some 0)], target := [(3, 5)] }
    let late : State := { base with proctor := p, pktCycle := 32000000 }
    (64 ≤ 64 ∧ 111 < 112 ∧ base.proctor.power ≠ .off) ∧ 1840 ≤ sx 16 1840 ∧ sx 16 1839 < 1840 ∧
    sx 16 1679 < (fieldW base.proctor.thresh 23 12 : Int) ∧ (fieldW base.proctor.thresh 11 0 : Int) ≤ sx 16 1520 ∧ base.proctor.above = [] ∧
    late.proctor.planAt + 259200000000 ≤ late.proctor.usec ∧ sget 0 late.proctor.offset 3 ≠ sget 0 late.proctor.target 3 ∧
    sget 0 late.proctor.stepAt 3 ≤ late.proctor.usec ∧ base.proctor.dueAt 0 = none ∧ base.proctor.rtPause.contains 0 = false ∧
    sget 0 late.proctor.rtLast 0 + 32000000 ≤ late.pktCycle ∧ late.proctor.dueAt 0 = some 0 ∧ late.deferring 0 = false ∧
    0 + 640000 ≤ late.pktCycle ∧ late.proctor.rtPause.contains 1 = true ∧ sget 0 late.proctor.rtEnd 1 ≤ late.pktCycle ∧ late.proctor.power = .run ∧ base.proctor.power ≠ .doze ∧
    base.proctor.armed = none ∧ base.proctor.jbuf.length < 1024 ∧
    (let e : JEntry := { seq := 0, type := 0, cause := 0x385, col := 0x3FF, exh := false, time := 0, val := 0 }
     1024 ≤ ({ base.proctor with jbuf := List.replicate 1024 e } : Proctor).jbuf.length) ∧ late.proctor.armed = some 7 ∧ bitN 7 1 = true ∧
    bitN 7 2 = true ∧ (1 : Word).getLsbD 0 = true ∧ (0 : Word).getLsbD 0 = false := by decide +kernel

theorem test_StepKeepsMemory : base.memWf = true ∧
    nextWith (step { base with agenda := [.event .replanTimer] }) (fun _ => true) = true := by decide +kernel
/-- SVNCOMMIT carried out as it is written, and later, raises FUSESVN. -/
theorem test_StepKeepsFuses :
    let p := { base.proctor with svn := 9, fuseSvn := 4 }
    nextWith (step { base with proctor := p, agenda := [.event (.svncommit (go 5))] }) (fun t => t.proctor.fuseSvn == 9) = true ∧
    nextWith (step { base with proctor := { p with mbrun := some (go 5) }, agenda := [.mbEnd] }) (fun t => t.proctor.fuseSvn == 9) =
      true ∧ fieldW (go 5) 7 0 = 5 := by decide +kernel

/-! ## Results worked out by hand from the rules -/

/-- The value and flags of the one result that the word leaves in flight. -/
def gives (i : Instr) (s : State) (w : VWord) (flags : Nat := 0) : Bool :=
  nextWith (exec i s) (fun t => t.last == .issued && t.bk.pend.map (fun e => (e.val, e.flags)) == [(.known w, flags)])

theorem test_add_wraps : gives (.add 3 1 2) (withX [(1, BitVec.allOnes 64), (2, 1)]) 0 = true := by decide +kernel
/-- R255: a shift count is taken modulo 64. -/
theorem test_sar_count : gives (.sar 3 1 2) (withX [(1, w64 (2 ^ 63)), (2, 65)]) (BitVec.ofNat 512 (3 * 2 ^ 62)) = true := by
  decide +kernel
/-- Table 9-3: −2^63 divided by −1 saturates; the remainder by zero is 0. -/
theorem test_divs_overflow : gives (.divs 3 1 2) (withX [(1, w64 (2 ^ 63)), (2, BitVec.allOnes 64)]) (BitVec.ofNat 512 (2 ^ 63 - 1)) =
    true ∧ gives (.rems 3 1 2) (withX [(1, 5), (2, 0)]) 0 = true := by decide +kernel
theorem test_clz_zero : gives (.clz 3 0) base 64 = true := by decide +kernel
theorem test_lis : gives (.lis 3 5) (withX [(3, 1)]) (2 ^ 17 + 5) = true := by decide +kernel
/-- 1 + 2^−24 lies halfway between two FP32 values: to nearest even it is 1, inexact (flag bit 4). -/
theorem test_fadd_tie : gives (.fadd 3 1 2 0) (withX [(1, 0x3F800000), (2, 0x33800000)]) 0x3F800000 16 = true := by decide +kernel
/-- R260: −0 is below +0. -/
theorem test_fmin_zeros : gives (.fmin 3 1 2) (withX [(1, 0), (2, 0x80000000)]) 0x80000000 = true := by decide +kernel
/-- FP32 1.0 divided by 0 is +infinity and raises DZ (flag bit 1). -/
theorem test_fdiv_zero : gives (.fdiv 3 1 2 0) (withX [(1, 0x3F800000), (2, 0)]) 0x7F800000 2 = true := by decide +kernel
/-- R264: the saturating sum of two bytes of 127 is 127 in every lane. -/
theorem test_vadds_saturates :
    gives (.vadds 3 1 1 0) (withCol (fun c => c.modBank 0 (fun k => k.writeV 1 (pack 8 (List.replicate 64 127)))))
      (pack 8 (List.replicate 64 127)) = true := by decide +kernel
/-- R224, R225: LD.b sign-extends, LDU.b zero-extends. -/
theorem test_ld_sign : gives (.ldB 3 1 0) ((at_ 8).wr (.ls 0 8) 0x80) (BitVec.ofNat 512 (2 ^ 64 - 128)) = true ∧
    gives (.lduB 3 1 0) ((at_ 8).wr (.ls 0 8) 0x80) 128 = true := by decide +kernel
theorem test_st_bytes : nextWith (exec (.stH 2 1 0) (withX [(1, localAddr 8), (2, 0x12345)])) (fun t =>
    t.rdNat (.ls 0 8) 4 == 0x2345 && t.me.ls.length == 2) = true := by decide +kernel
/-- R231: compare-and-swap writes where the old value equals X(d). -/
theorem test_amo_cas : nextWith (exec (.amoCas 3 1 2 0) (at_ 0x40)) (fun t => t.rdNat (.ls 0 0x40) 8 == 16) = true := by
  decide +kernel
/-- R219: TRET.next after a lone word resumes 4 bytes on, in the band. -/
theorem test_tret_next : nextWith (exec .tretNext ((trapState.modMe (fun c => { c with tepc := 0x80 })).wrNat (.ls 0 0x80) 4 0x40000000))
    (fun t => !t.me.inTrap && t.fire.elim 0 Firing.pc == 0x84) = true := by decide +kernel

/-- FIPS 180-4's own example: the digest of "abc". -/
theorem test_sha384_abc : sha384 [0x61, 0x62, 0x63] =
    beBytes 48 0xCB00753F45A35E8BB5A03D699AC65007272C32AB0EDED1631A8B605A43FF5BED8086072BA1E7CC2358BAECA134C825A7 := by
  decide +kernel
/-- RFC 5639: the base point lies on brainpoolP384r1 and has the curve's order. -/
theorem test_curve_order : (keyPoint (0x04 :: beBytes 48 curveG.x ++ beBytes 48 curveG.y)).isSome = true ∧
    (curveG.times curveQ).z = 0 ∧ (curveG.times 1).z ≠ 0 := by decide +kernel

/-! ## Steps from reset -/

/-- The word placed by `withFetchWord` is the first that runs: LI x5, 0x1234 is in flight after one step. -/
theorem test_withFetchWord_li : nextWith (step (State.reset.withFetchWord 32 0xC30A1234)) (fun t =>
    t.me.cycle == 1 && ((t.col 0).bank 0).pend.map (·.val) == [.known 0x1234]) = true := by decide +kernel
end Sys2Proof.Tests
end

section
/-!
Bell lines (R97, R156, R242): what `State.onBell` does with the line it finds, then each of BELLA, BELLW and BELLT by a
member, and O38 from these.
-/
namespace Sys2Proof.Machine

/-! ## The line of a bell instruction -/

theorem State.onBell_of_unbound (s : State) (l : BitVec 5) (k : Bell → List Nat → Out)
    (hb : (s.bell (dieOf s.cur) l.toNat).group = none) : s.onBell l k = s.trap 0x18B (w64 l.toNat) := by
  simp only [State.onBell, hb]

theorem State.onBell_of_not_mem (s : State) (l : BitVec 5) (k : Bell → List Nat → Out) {g : Nat}
    (hb : (s.bell (dieOf s.cur) l.toNat).group = some g) (hm : s.cur ∉ members (s.groupMap g)) :
    s.onBell l k = s.trap 0x18B (w64 l.toNat) := by
  simp only [State.onBell, hb, List.contains_iff_mem, if_neg hm]

theorem State.onBell_of_mem (s : State) (l : BitVec 5) (k : Bell → List Nat → Out) {g : Nat}
    (hb : (s.bell (dieOf s.cur) l.toNat).group = some g) (hm : s.cur ∈ members (s.groupMap g)) :
    s.onBell l k = k (s.bell (dieOf s.cur) l.toNat) (members (s.groupMap g)) := by
  simp only [State.onBell, hb, List.contains_iff_mem, if_pos hm]

theorem exec_bella (l : BitVec 5) (s : State) : exec (.bella l) s = execBella l s := rfl
theorem exec_bellw (d l : BitVec 5) (s : State) : exec (.bellw d l) s = execBellw d l s := rfl
theorem exec_bellt (d l : BitVec 5) (s : State) : exec (.bellt d l) s = execBellt d l s := rfl

/-- Where the line's answer is the same whatever would follow, it is what all three bell instructions answer. -/
theorem exec_bell_of_onBell {s : State} {d l : BitVec 5} {o : Out} (hr : s.ready [.x d.toNat] = true)
    (ho : ∀ k, s.onBell l k = o) :
    exec (.bella l) s = o ∧ exec (.bellw d l) s = o ∧ exec (.bellt d l) s = o := by
  refine ⟨?_, ?_, ?_⟩
  · rw [exec_bella, execBella, ho]
  · rw [exec_bellw, execBellw, s.need_of_ready _ _ hr, ho]
  · rw [exec_bellt, execBellt, s.need_of_ready _ _ hr, ho]

/-! ## The conditions and the words of the bell instructions -/

theorem bella_waits_iff (p : Nat) (fl : List Nat) (w : Bool) : (fl.contains p || w) = true ↔ p ∈ fl ∨ w = true := by
  rw [Bool.or_eq_true, List.contains_iff_mem]

theorem all_arrived_iff (ms fl : List Nat) (c : Nat) :
    ms.all (fun p => (c :: fl).contains p) = true ↔ ∀ p ∈ ms, p = c ∨ p ∈ fl := by
  simp only [List.all_eq_true, List.contains_iff_mem, List.mem_cons]

theorem b2n_contains (l : List Nat) (a : Nat) : b2n (l.contains a) = if a ∈ l then 1 else 0 := by
  simp only [b2n, List.contains_iff_mem]

theorem two_mul_b2n (b : Bool) : 2 * b2n b = if b then 2 else 0 := by
  cases b <;> rfl

/-! ## The bell instructions of a member -/

section Member
variable {s : State} {d l : BitVec 5} {g : Nat}

/-- R99, R156: a flag already set, or an earlier access that is not yet performed, holds the arrival back. -/
theorem exec_bella_of_blocked (hb : (s.bell (dieOf s.cur) l.toNat).group = some g)
    (hm : s.cur ∈ members (s.groupMap g))
    (h : s.cur ∈ (s.bell (dieOf s.cur) l.toNat).flags ∨ s.relWaitAt (bellScope (members (s.groupMap g))) = true) :
    exec (.bella l) s = .next { s with last := .stalled } := by
  rw [exec_bella, execBella, s.onBell_of_mem l _ hb hm, if_pos ((bella_waits_iff _ _ _).2 h), State.stalled]

/-- An arrival that nothing holds back: the flag joins the others, and BELL_FLIP follows when all members have theirs. -/
theorem exec_bella_of_clear (hb : (s.bell (dieOf s.cur) l.toNat).group = some g)
    (hm : s.cur ∈ members (s.groupMap g)) (hf : s.cur ∉ (s.bell (dieOf s.cur) l.toNat).flags)
    (hw : s.relWaitAt (bellScope (members (s.groupMap g))) = false) :
    exec (.bella l) s =
      let b := s.bell (dieOf s.cur) l.toNat
      let ms := members (s.groupMap g)
      .next (s.setBell l.toNat ms (if ∀ p ∈ ms, p = s.cur ∨ p ∈ b.flags then { b with flags := [], phase := !b.phase }
        else { b with flags := s.cur :: b.flags })).done := by
  rw [exec_bella, execBella, s.onBell_of_mem l _ hb hm, if_neg (fun h => ?_)]
  · simp only [State.issued_eq, all_arrived_iff]
  · exact ((bella_waits_iff _ _ _).1 h).elim hf (Bool.eq_false_iff.1 hw)

theorem exec_bellw_of_flag_set (hr : s.ready [.x d.toNat] = true)
    (hb : (s.bell (dieOf s.cur) l.toNat).group = some g) (hm : s.cur ∈ members (s.groupMap g))
    (hf : s.cur ∈ (s.bell (dieOf s.cur) l.toNat).flags) :
    exec (.bellw d l) s = .next { s with last := .stalled } := by
  rw [exec_bellw, execBellw, s.need_of_ready _ _ hr, s.onBell_of_mem l _ hb hm, if_pos (List.contains_iff_mem.2 hf),
    State.stalled]

theorem exec_bellw_of_flag_clear (hr : s.ready [.x d.toNat] = true)
    (hb : (s.bell (dieOf s.cur) l.toNat).group = some g) (hm : s.cur ∈ members (s.groupMap g))
    (hf : s.cur ∉ (s.bell (dieOf s.cur) l.toNat).flags) :
    exec (.bellw d l) s = .next (s.delivers (.x d.toNat)
      (BitVec.ofNat 512 (if (s.bell (dieOf s.cur) l.toNat).phase then 1 else 0)) 2) := by
  rw [exec_bellw, execBellw, s.need_of_ready _ _ hr, s.onBell_of_mem l _ hb hm, if_neg (mt List.contains_iff_mem.1 hf),
    State.issued_eq, State.delivers, b2n]

theorem exec_bellt_of_mem (hr : s.ready [.x d.toNat] = true)
    (hb : (s.bell (dieOf s.cur) l.toNat).group = some g) (hm : s.cur ∈ members (s.groupMap g)) :
    exec (.bellt d l) s = .next (s.delivers (.x d.toNat)
      (BitVec.ofNat 512 ((if s.cur ∈ (s.bell (dieOf s.cur) l.toNat).flags then 1 else 0) +
        (if (s.bell (dieOf s.cur) l.toNat).phase then 2 else 0))) 2) := by
  rw [exec_bellt, execBellt, s.need_of_ready _ _ hr, s.onBell_of_mem l _ hb hm, State.issued_eq, State.delivers,
    b2n_contains, two_mul_b2n]

end Member

/-- Settles O38, by what the line of the issuing column's die holds: unbound, bound to a group without the column, or to
one with it; there by the column's own flag, and for BELLA by whether its arrival is the last. -/
theorem bells : Obligations.Bells := by
  unfold Obligations.Bells
  intro s d l hr
  refine ⟨fun hb => exec_bell_of_onBell hr fun k => s.onBell_of_unbound l k hb, fun g hb => ⟨fun hm => ?_, fun hm =>
    ⟨fun hf => ?_, fun hf => ⟨fun hw => ?_, fun hw hall => ?_, fun hw hsome => ?_, ?_⟩, exec_bellt_of_mem hr hb hm⟩⟩⟩
  · exact (exec_bell_of_onBell hr fun k => s.onBell_of_not_mem l k hb hm).1
  · exact ⟨exec_bella_of_blocked hb hm (.inl hf), exec_bellw_of_flag_set hr hb hm hf⟩
  · exact exec_bella_of_blocked hb hm (.inr hw)
  · simpa only [if_pos hall] using exec_bella_of_clear hb hm hf hw
  · have hnot : ¬ ∀ p ∈ members (s.groupMap g), p = s.cur ∨ p ∈ (s.bell (dieOf s.cur) l.toNat).flags := by
      obtain ⟨p, hp, hne, hclear⟩ := hsome
      exact fun hall => (hall p hp).elim hne hclear
    simpa only [if_neg hnot] using exec_bella_of_clear hb hm hf hw
  · exact exec_bellw_of_flag_clear hr hb hm hf

end Sys2Proof.Machine
end

section
/-!
A turn that issues a lone word (R190, R199, R202): what the turn leaves alone before the column comes to its group, what the
column then issues, what the orders of its firing hold back, and O17 from these.
-/
namespace Sys2Proof.Machine

/-! ## Memory writes and the start of a turn leave the power state and the issuing column alone -/

@[simp] theorem State.proctor_wr (s : State) (l : Loc) (v : Byte) : (s.wr l v).proctor = s.proctor := by
  cases l <;> rfl

@[simp] theorem State.proctor_wrBits (s : State) (w : ByteW) : (s.wrBits w).proctor = s.proctor := by
  unfold State.wrBits; split <;> exact s.proctor_wr _ _

@[simp] theorem State.proctor_wrAll (s : State) (ws : List ByteW) : (s.wrAll ws).proctor = s.proctor := by
  unfold State.wrAll
  induction ws generalizing s with
  | nil => rfl
  | cons w ws ih => rw [List.foldl_cons, ih, State.proctor_wrBits]

@[simp] theorem State.proctor_settleOwn (s : State) (t : Turn) : (s.settleOwn t).proctor = s.proctor := by
  unfold State.settleOwn
  split
  · rfl
  · exact State.proctor_wrAll _ _

theorem State.cur_starvation (s : State) (p : Nat) : (s.starvation p).cur = s.cur := by
  unfold State.starvation
  dsimp only
  split <;> rfl

@[simp] theorem State.cur_turned (s : State) (p : Nat) : (s.turned p).cur = p := by
  simp only [State.turned, State.cur_starvation, State.modCol_cur]

@[simp] theorem State.cur_atIssue (s : State) (p : Nat) (rest : List Turn) : (s.atIssue p rest).cur = p := by
  simp only [State.atIssue, State.atTurn, State.modFire_cur, State.cur_turned]

/-! ## The turn of a column that may issue -/

/-- A step whose turn is column p's issue slot is that column's turn, and one package cycle. -/
theorem step_of_issue {s : State} {p : Nat} {rest : List Turn} (ha : s.agenda = .issue p :: rest) :
    step s = tickPackage ((({ s.ports with agenda := rest } : State).settleOwn (.issue p)).turn p) := by
  have hports : s.ports.agenda = .issue p :: rest := s.ports_keeps.1.trans ha
  simp only [step, State.next, hports, State.runTurn]

theorem State.turn_of_nothing_due {s : State} {p : Nat} (hpow : s.proctor.power = .run)
    (hdue : (s.turned p).dueAt p = none) : s.turn p = (s.turned p).issueNow := by
  simp only [State.turn, if_pos hpow, hdue]

theorem State.issueNow_of_running {s : State} {f : Firing} (hrun : s.me.running.isSome = true) (hf : s.fire = some f)
    (hpark : f.park = none) (hphase : f.phase = .run) (hdrain : s.drained f = true) :
    s.issueNow = (s.modFire (fun g => { g with drain := false, lwait := none })).issueGroup f := by
  obtain ⟨b, hb⟩ := Option.isSome_iff_exists.1 hrun
  simp [State.issueNow, hb, hf, hpark, hphase, hdrain]

/-- The step of a column that is ready fetches and issues the group at its firing's pc. -/
theorem step_of_readyToIssue {s : State} {p : Nat} {rest : List Turn} {f : Firing} (h : s.readyToIssue p rest f) :
    step s = tickPackage ((s.atIssue p rest).issueGroup f) := by
  obtain ⟨hagenda, hpow, hdue, hrun, hfire, hpark, hphase, hdrain⟩ := h
  have hpow' : (({ s.ports with agenda := rest } : State).settleOwn (.issue p)).proctor.power = .run := by
    rw [State.proctor_settleOwn]
    exact s.ports_keeps.2.trans hpow
  have hnow : (s.atTurn p rest).issueNow = (s.atIssue p rest).issueGroup f :=
    State.issueNow_of_running hrun hfire hpark hphase hdrain
  rw [step_of_issue hagenda, State.turn_of_nothing_due hpow' hdue, ← hnow, State.atTurn]

/-! ## A lone word and what holds it back -/

theorem State.issueGroup_of_lone {s : State} {f : Firing} {w next : Nat}
    (h : s.fetchGroup s.cur f.pc f.jump f.last = .lone w next) :
    s.issueGroup f = s.conclude w f.pc next
      (State.countFetch s.cur f.pc 4 (s.ordered [w] (s.loneWord w f.pc next))) := by
  simp only [State.issueGroup, h]

@[simp] theorem State.heldBy_zero (s : State) (l : List Loc) : s.heldBy 0 l = [] := by
  simp [State.heldBy]

theorem firstInstr_of_decode {w : Nat} {h : Header} {i : Instr} (hd : decodeNat w = .ok (h, i)) :
    firstInstr w = some i := by
  simp only [firstInstr, hd]

theorem firstInstr_of_illegal {w : Nat} {r : Reason} (hd : decodeNat w = .error r) : firstInstr w = none := by
  simp only [firstInstr, hd]

/-- A lone word is held back by the orders that hold back its kind. -/
theorem State.ordered_lone (s : State) (w : Nat) (k : Out) :
    s.ordered [w] k = s.inOrder ((firstInstr w).elim 0 Instr.orderKind) [] k := by
  have hkind : ([w].map (fun w => (firstInstr w).elim 0 Instr.orderKind)).flatMap (fun n => s.heldBy n []) =
      s.heldBy ((firstInstr w).elim 0 Instr.orderKind) [] := by
    rw [List.map_singleton, List.flatMap_singleton]
  cases h : s.heldBy ((firstInstr w).elim 0 Instr.orderKind) [] <;> simp only [State.ordered, State.inOrder, hkind, h]

theorem State.inOrder_of_free {s : State} {n : Nat} {l : List Loc} (k : Out) (h : s.heldBy n l = []) :
    s.inOrder n l k = k := by
  simp only [State.inOrder, h]

/-- Where no command is parked among those the group waits for, it stalls and parks nothing. -/
theorem State.waitCmds_of_unparked {s : State} {ids : List Nat}
    (h : ids.all (fun n => !s.me.parkedIds.contains n) = true) : s.waitCmds ids = s.stalled := by
  have hnone : ids.filter (fun n => s.me.parkedIds.contains n) = [] :=
    List.filter_eq_nil_iff.2 fun n hn => by simpa using List.all_eq_true.1 h n hn
  simp only [State.waitCmds, hnone]

theorem State.inOrder_of_held {s : State} {n : Nat} {l : List Loc} {o : Order} {os : List Order} (k : Out)
    (h : s.heldBy n l = o :: os)
    (hp : ((o :: os).flatMap (·.engs)).all (fun n => !s.me.parkedIds.contains n) = true) :
    s.inOrder n l k = s.stalled := by
  simp only [State.inOrder, h]
  exact State.waitCmds_of_unparked hp

theorem State.loneWord_of_decode (s : State) {w : Nat} (pc next : Nat) {h : Header} {i : Instr}
    (hd : decodeNat w = .ok (h, i)) : s.loneWord w pc next = exec i (s.enter w pc next false) := by
  simp only [State.loneWord, hd]

/-- An encoding cause of a group is a trap at the group's address. -/
theorem State.illegal_eq_trap (s : State) {cause : Nat} (tval : Word) (pc : Nat) (aw : Bool)
    (h : 1 ≤ cause ∧ cause ≤ 8) : s.illegal cause tval pc aw = (s.enter 0 pc pc aw).trap cause tval := by
  rw [State.illegal, execIllegalInstruction, if_pos h]

theorem State.loneWord_of_illegal (s : State) {w : Nat} (pc next : Nat) {r : Reason} (hd : decodeNat w = .error r) :
    s.loneWord w pc next = (s.enter 0 pc pc false).trap 1 (wordTval w pc r) := by
  simp only [State.loneWord, hd]
  exact s.illegal_eq_trap _ pc false (by decide)

/-- Settles O17, by what the word decodes to and, where it decodes, by whether an order holds back its kind; a word that does
not decode has no kind, so that nothing holds it back. -/
theorem stepRunsLoneWord : Obligations.StepRunsLoneWord := by
  unfold Obligations.StepRunsLoneWord
  intro s p rest f w next hready v run hfetch
  have hstep : step s = run (v.inOrder ((firstInstr w).elim 0 Instr.orderKind) [] (v.loneWord w f.pc next)) := by
    have hcur : v.cur = p := s.cur_atIssue p rest
    rw [step_of_readyToIssue hready, State.issueGroup_of_lone (hcur ▸ hfetch), State.ordered_lone, hcur]
  refine ⟨fun h i hd hfree => ?_, fun h i o l hd hheld hpark => ?_, fun r hd => ?_⟩
  · rw [hstep, firstInstr_of_decode hd, Option.elim_some, State.inOrder_of_free _ hfree, v.loneWord_of_decode _ _ hd]
  · rw [hstep, firstInstr_of_decode hd, Option.elim_some, State.inOrder_of_held _ hheld hpark, State.stalled]
  · rw [hstep, firstInstr_of_illegal hd, Option.elim_none, State.inOrder_of_free _ (v.heldBy_zero []),
      v.loneWord_of_illegal _ _ hd]

end Sys2Proof.Machine
end

section
/-!
FENCE and LFENCE (R145, R147, R233): when an order is over, what an order that is not over holds back of loads, stores and
atomics, what an LFENCE waits for, and O32 from these.
-/
namespace Sys2Proof.Machine

/-! ## The orders of a FENCE -/

theorem State.orderOver_of_nothing_left (s : State) {o : Order} (hr : o.reqs = []) (he : o.engs = [])
    (hf : o.flush = true → s.hostPending s.cur = false) : s.orderOver o = true := by
  have hflush : (o.flush && s.hostPending s.cur) = false := by
    cases h : o.flush with
    | false => rfl
    | true => exact hf h
  simp [State.orderOver, State.orderOverAt, hr, he, hflush]

/-- The order a FENCE of these fields makes (R145, R233). -/
def State.fenceOrder (s : State) (e m r : BitVec 1) (o : BitVec 3) : Order :=
  { kinds := r.toNat + 2 * m.toNat + 4 * e.toNat, scope := o.toNat,
    reqs := if r = 1 then s.unperformed o.toNat false else if m = 1 then s.unperformed o.toNat true else [],
    engs := if e = 1 then s.engineIds s.cur s.me.band else [], flush := m == 1 && o == 4, fresh := true }

theorem exec_fence (s : State) (e m r : BitVec 1) (o : BitVec 3) :
    exec (.fence e m r o) s = execFence e m r o s := rfl

theorem exec_fence_order (s : State) (e m r : BitVec 1) (o : BitVec 3) :
    exec (.fence e m r o) s = .next (if s.orderOver (s.fenceOrder e m r o) then s.done
      else (s.modFire (fun f => { f with
        orders := f.orders.filter (fun x => !s.orderOver x) ++ [s.fenceOrder e m r o] })).done) := by
  have hexec : exec (.fence e m r o) s = (s.addOrder (s.fenceOrder e m r o)).issued := by
    rw [exec_fence, execFence, State.fenceOrder]
    simp only [beq_iff_eq, BitVec.ofNat_eq_ofNat]
  rw [hexec, State.issued_eq, State.addOrder, apply_ite State.done]

/-- A FENCE is over at once where nothing it names is left. -/
theorem State.orderOver_fenceOrder (s : State) {e m r : BitVec 1} {o : BitVec 3}
    (hr : r = 1 → s.unperformed o.toNat false = []) (hm : m = 1 → s.unperformed o.toNat true = [])
    (hh : m = 1 → o = 4 → s.hostPending s.cur = false) (he : e = 1 → s.engineIds s.cur s.me.band = []) :
    s.orderOver (s.fenceOrder e m r o) = true := by
  apply s.orderOver_of_nothing_left
  · unfold State.fenceOrder
    dsimp only
    split
    next hreads => exact hr hreads
    next =>
      split
      next hwrites => exact hm hwrites
      next => rfl
  · unfold State.fenceOrder
    dsimp only
    split
    next hengines => exact he hengines
    next => rfl
  · intro hf
    simp only [State.fenceOrder, Bool.and_eq_true, beq_iff_eq] at hf
    exact hh hf.1 hf.2

/-! ## What an order that is not over holds back -/

theorem and_one_ne_zero {k : Nat} (h : k % 2 = 1) : k &&& 1 ≠ 0 := by
  rw [Nat.and_one_is_mod, h]
  decide

theorem and_two_ne_zero {k : Nat} (h : k / 2 % 2 = 1) : k &&& 2 ≠ 0 := by
  have hbit : k.testBit 1 = true := by simpa [Nat.testBit_eq_decide_div_mod_eq] using h
  intro h0
  have hzero : (k &&& 2).testBit 1 = false := by rw [h0, Nat.zero_testBit]
  rw [Nat.testBit_and, hbit] at hzero
  exact absurd hzero (by decide)

theorem and_three_ne_zero {k : Nat} (h : k % 4 ≠ 0) : k &&& 3 ≠ 0 := by
  rwa [show 3 = 2 ^ 2 - 1 from rfl, Nat.and_two_pow_sub_one_eq_mod]

theorem State.mem_heldBy {s : State} {f : Firing} {x : Order} {n : Nat} {l : List Loc} (hf : s.fire = some f)
    (hx : x ∈ f.orders) (hfresh : x.fresh = false) (hover : s.orderOver x = false)
    (hl : l.any (inScope s.cur x.scope s.capacity) = true) (hk : x.kinds &&& n ≠ 0) : x ∈ s.heldBy n l := by
  simp [State.heldBy, hf, hx, hfresh, hover, hl, hk]

/-- An event that some order holds back stalls, where no command is parked. -/
theorem State.inOrder_of_mem {s : State} {x : Order} {n : Nat} {l : List Loc} (k : Out) (hx : x ∈ s.heldBy n l)
    (hpark : s.me.parkedIds = []) : s.inOrder n l k = s.stalled := by
  obtain ⟨o, os, hos⟩ := List.exists_cons_of_ne_nil (List.ne_nil_of_mem hx)
  exact State.inOrder_of_held k hos (by simp [hpark])

/-! ## A load, a store and an atomic that are held back -/

theorem locs_byteWs (l : List Loc) (bs : List Byte) (h : l.length = bs.length) : (byteWs l bs).map (·.loc) = l := by
  induction l generalizing bs with
  | nil => rfl
  | cons x l ih =>
    obtain ⟨b, bs, rfl⟩ := List.exists_cons_of_length_eq_add_one h.symm
    exact congrArg (x :: ·) (ih bs (Nat.succ.inj h))

theorem exec_ldD (s : State) (d a : BitVec 5) (i : BitVec 12) : exec (.ldD d a i) s = execLdD d a i s := rfl
theorem exec_stD (s : State) (d a : BitVec 5) (i : BitVec 12) : exec (.stD d a i) s = execStD d a i s := rfl
theorem exec_amoAdd (s : State) (d a b : BitVec 5) (o : BitVec 4) :
    exec (.amoAdd d a b o) s = execAmoAdd d a b o s := rfl

theorem exec_ldD_of_held {s : State} {d a : BitVec 5} {i : BitVec 12} {c : Acc} {l : List Loc}
    (hr : s.ready [.x a.toNat, .x d.toNat] = true)
    (hacc : s.access (s.X a + i.signExtend 64) false (scalarSize 8) (scalarAlign 8) admitInt = .ok c l)
    (hheld : ∀ k, s.inOrder 1 l k = s.stalled) : exec (.ldD d a i) s = s.stalled := by
  simp only [exec_ldD, execLdD, ldInt, s.need_of_ready _ _ hr, State.addrI, hacc, State.onChk, State.load, hheld]

theorem exec_stD_of_held {s : State} {d a : BitVec 5} {i : BitVec 12} {c : Acc} {l : List Loc}
    (hr : s.ready [.x a.toNat, .x d.toNat] = true) (hown : c.isOwn = true)
    (hacc : s.access (s.X a + i.signExtend 64) true (scalarSize 8) (scalarAlign 8) admitInt = .ok c l)
    (hheld : ∀ k, s.inOrder 2 l k = s.stalled) : exec (.stD d a i) s = s.stalled := by
  simp only [exec_stD, execStD, stInt, s.need_of_ready _ _ hr, State.addrI, hacc, State.onChk, State.store, if_pos hown,
    locs_byteWs l _ (length_leBytes _ _).symm, hheld]

theorem exec_amoAdd_of_held {s : State} {d a b : BitVec 5} {o : BitVec 4} {c : Acc} {l : List Loc}
    (hr : s.ready [.x a.toNat, .x b.toNat, .x d.toNat] = true) (hne : l ≠ []) (hhost : ∀ y ∈ l, isHost y = false)
    (hacc : s.access (s.X a) true (fun _ => 8) (fun _ => 8) (fun c => c.glob || c.win == 0) = .ok c l)
    (hheld : ∀ k, s.inOrder 3 l k = s.stalled) : exec (.amoAdd d a b o) s = s.stalled := by
  obtain ⟨y, ys, rfl⟩ := List.exists_cons_of_ne_nil hne
  simp [exec_amoAdd, execAmoAdd, amoForm, s.need_of_ready _ _ hr, hacc, State.onChk, hhost y List.mem_cons_self, hheld]

/-! ## LFENCE -/

theorem exec_lfence (s : State) (n : BitVec 3) :
    exec (.lfence n) s = .next (s.modFire (fun f => { f with
      lwait := some (f.lwait.getD [] ++ s.lseInLayer s.cur n.toNat) })).done := rfl

/-- A firing that waits for an LSE command of its die which has not finished writing may not issue. -/
theorem State.drained_of_waiting {s : State} {f : Firing} {l : List Nat} {k : LCmd} (hw : f.lwait = some l)
    (hk : k ∈ sget [] s.lse (dieOf s.cur)) (hid : k.id ∈ l) (hsw : k.switched = false) : s.drained f = false := by
  have hany : (sget [] s.lse (dieOf s.cur)).any (fun k => l.contains k.id && !k.switched) = true :=
    List.any_eq_true.2 ⟨k, hk, by simp [hid, hsw]⟩
  have hopen : s.lfenceOver f = false := by
    rw [State.lfenceOver, hw, Option.elim_some, hany, Bool.not_true, Bool.and_false]
  rw [State.drained, hopen, Bool.false_and]

/-- Settles O32: what a FENCE orders and that it is over where nothing is left; the load, the store and the atomic that an
order not over stalls; what an LFENCE waits for. -/
theorem fences : Obligations.Fences := by
  unfold Obligations.Fences
  refine ⟨fun s e m r o n => ⟨exec_fence_order s e m r o, fun hr hm hh he => ?_, exec_lfence s n⟩,
    fun s d a b i q c l f x hr2 hr3 hf hx hfresh hover hl hpark => ?_, fun s f l hw ⟨k, hk, hid, hsw⟩ =>
    State.drained_of_waiting hw hk hid hsw⟩
  · rw [exec_fence_order, if_pos (s.orderOver_fenceOrder hr hm hh he)]
  · have hheld (n : Nat) (hk : x.kinds &&& n ≠ 0) (k : Out) : s.inOrder n l k = s.stalled :=
      State.inOrder_of_mem k (State.mem_heldBy hf hx hfresh hover hl hk) hpark
    have hne : l ≠ [] := by rintro rfl; simp at hl
    exact ⟨fun hk hacc => exec_ldD_of_held hr2 hacc (hheld 1 (and_one_ne_zero hk)),
      fun hk hown hacc => exec_stD_of_held hr2 hown hacc (hheld 2 (and_two_ne_zero hk)),
      fun hk hhost hacc => exec_amoAdd_of_held hr3 hne hhost hacc (hheld 3 (and_three_ne_zero hk))⟩

end Sys2Proof.Machine
end

section
/-!
Matrix commands at issue (R277, R283, R285, R291 to R295, R301, R302): what the matrix queue takes, what the reads of tile
counts and the streams leave alone, each command once its registers are ready, and O39 from these.
-/
namespace Sys2Proof.Machine

/-! ## The matrix queue -/

/-- The entry of the matrix queue that the issuing word makes for `op` (R21). -/
def State.matrixEntry (s : State) (op : MOp) : MCmd :=
  { id := s.nextId, band := s.me.band, tmsg := s.fire.elim 0 (·.trig), tepc := s.ctx.pc, aw := s.ctx.aw, op := op,
    begun := false, grp := 0, step := 0, from_ := s.me.cycle, due := 0, again := false, promoted := false, reads := [],
    out := [], res := none }

/-- The destination of a command, if it has one, held pending until the command completes (R306). -/
def State.holding (s : State) (dst : Option Reg) : State := dst.elim s fun r => s.awaiting r s.nextId

theorem State.enqueueM_of_room {s : State} (op : MOp) (dst : Option Reg) (h : s.me.mq.length < 2) :
    s.enqueueM op dst = .next ({ (s.holding dst).modMe (fun k => { k with mq := k.mq ++ [s.matrixEntry op] }) with
      nextId := s.nextId + 1 } : State).done := by
  simp only [State.enqueueM, if_neg (Nat.not_le.2 h)]
  cases dst <;> rfl

theorem State.enqueueM_of_full {s : State} (op : MOp) (dst : Option Reg) (h : 2 ≤ s.me.mq.length) :
    s.enqueueM op dst = .next { s with last := .stalled } := by
  simp only [State.enqueueM, if_pos h, State.stalled]

theorem State.holding_rest (s : State) (dst : Option Reg) : s.holding dst = { s with cols := (s.holding dst).cols } := by
  cases dst <;> rfl

theorem State.cur_holding (s : State) (dst : Option Reg) : (s.holding dst).cur = s.cur := by
  cases dst <;> rfl

theorem State.col_holding_ne (s : State) (dst : Option Reg) {p : Nat} (h : p ≠ s.cur) :
    (s.holding dst).col p = s.col p := by
  cases dst with
  | none => rfl
  | some r =>
    simp only [State.holding, Option.elim_some, State.awaiting, State.modBk]
    exact s.col_modMe_ne _ h

theorem State.me_holding (s : State) (dst : Option Reg) :
    (s.holding dst).me = { s.me with banks := (s.holding dst).me.banks } := by
  cases dst with
  | none => rfl
  | some r => simp only [State.holding, Option.elim_some, State.awaiting, State.modBk, State.me_modMe]; rfl

theorem State.bank_holding_ne (s : State) (dst : Option Reg) {b : Nat} (h : b ≠ s.me.bankIx) :
    (s.holding dst).me.bank b = s.me.bank b := by
  cases dst with
  | none => rfl
  | some r =>
    simp only [State.holding, Option.elim_some, State.awaiting, State.modBk, State.me_modMe]
    exact Column.bank_modBank_ne _ _ h

theorem State.bk_holding (s : State) (dst : Option Reg) :
    (s.holding dst).bk = { s.bk with pend := s.bk.pend ++ dst.toList.map (fun r =>
      { reg := r, val := .await s.nextId, due := 0, flags := 0, ftz := 0, band := s.me.band, fresh := true }) } := by
  cases dst with
  | none => simp [State.holding]
  | some r => simp [State.holding, State.awaiting]

/-- The outcome is that `op` has entered the matrix queue, the streams as they were. -/
def State.Enters (s : State) (op : MOp) (dst : Option Reg) (o : Out) : Prop :=
  ∃ t, o = .next t ∧ s.Queues op dst s.bk.sagb t

theorem State.enters_of_room {s : State} {op : MOp} {dst : Option Reg} {o : Out} (h : s.me.mq.length < 2)
    (ho : o = s.enqueueM op dst) : s.Enters op dst o := by
  let u := (s.holding dst).modMe (fun k => { k with mq := k.mq ++ [s.matrixEntry op] })
  have hme : u.me = { (s.holding dst).me with mq := (s.holding dst).me.mq ++ [s.matrixEntry op] } := State.me_modMe _ _
  refine ⟨_, ho.trans (State.enqueueM_of_room op dst h), ?_⟩
  constructor
  case rest =>
    have hrest : u = { s with cols := u.cols } := by
      show { s.holding dst with cols := u.cols } = _
      rw [s.holding_rest dst]
    show ({ u with nextId := s.nextId + 1, last := .issued } : State) = _
    rw [hrest]
    rfl
  case others =>
    intro p hp
    show u.col p = s.col p
    exact ((s.holding dst).col_modMe_ne _ (s.cur_holding dst ▸ hp)).trans (s.col_holding_ne dst hp)
  case column =>
    show u.me = { s.me with banks := u.me.banks, mq := u.me.mq }
    rw [hme, s.me_holding dst]
  case entry =>
    refine ⟨s.matrixEntry op, ?_, rfl, rfl, rfl, rfl, rfl, rfl, rfl⟩
    show u.me.mq = _
    rw [hme, s.me_holding dst]
  case banks =>
    intro b hb
    show u.me.bank b = _
    rw [hme]
    exact s.bank_holding_ne dst hb
  case bank =>
    have hbk : u.bk = (s.holding dst).bk := by
      rw [State.bk, hme]
      rfl
    exact hbk.trans (s.bk_holding dst)

/-! ## The streams of a command advance (R127) -/

theorem Column.advance_cons (c : Column) (g : MGroup) (gs : List MGroup) :
    ∃ f : Bank → Bank, (∀ k, f k = { k with sagb := (f k).sagb }) ∧
      c.advance (g :: gs) = (c.modBank c.band f).advance gs :=
  ⟨_, fun _ => rfl, rfl⟩

theorem Column.advance_eq (c : Column) (gs : List MGroup) : c.advance gs = { c with banks := (c.advance gs).banks } := by
  induction gs generalizing c with
  | nil => rfl
  | cons g gs ih =>
    obtain ⟨f, -, hf⟩ := c.advance_cons g gs
    rw [hf, ih]
    rfl

theorem Column.bank_advance_ne (c : Column) (gs : List MGroup) {b : Nat} (h : b ≠ c.band) :
    (c.advance gs).bank b = c.bank b := by
  induction gs generalizing c with
  | nil => rfl
  | cons g gs ih =>
    obtain ⟨f, -, hf⟩ := c.advance_cons g gs
    rw [hf, ih (c.modBank c.band f) h, Column.bank_modBank_ne _ _ h]

theorem Column.bank_advance_band (c : Column) (gs : List MGroup) :
    (c.advance gs).bank c.band = { c.bank c.band with sagb := ((c.advance gs).bank c.band).sagb } := by
  induction gs generalizing c with
  | nil => rfl
  | cons g gs ih =>
    obtain ⟨f, hkeeps, hf⟩ := c.advance_cons g gs
    have hbank := ih (c.modBank c.band f)
    rw [show (c.modBank c.band f).band = c.band from rfl, Column.bank_modBank_self, hkeeps] at hbank
    rw [hf, hbank]

theorem Column.bankIx_of_not_inTrap {c : Column} (h : c.inTrap = false) : c.bankIx = c.band := by
  rw [Column.bankIx, h]
  rfl

/-- A command that enters the queue of a column whose streams have advanced has entered that of the column before, with
the streams advanced. -/
theorem State.Queues.of_advanced {u t : State} {op : MOp} {dst : Option Reg} {gs : List MGroup}
    (hin : u.me.inTrap = false)
    (h : (u.modMe (fun c => c.advance gs)).Queues op dst (u.modMe (fun c => c.advance gs)).bk.sagb t) :
    u.Queues op dst ((u.me.advance gs).bank u.me.band).sagb t := by
  have hix : u.me.bankIx = u.me.band := Column.bankIx_of_not_inTrap hin
  have hme : (u.modMe (fun c => c.advance gs)).me = { u.me with banks := (u.me.advance gs).banks } :=
    (State.me_modMe _ _).trans (Column.advance_eq _ _)
  have hbk : (u.modMe (fun c => c.advance gs)).bk =
      { u.bk with sagb := ((u.me.advance gs).bank u.me.band).sagb } := by
    have hbank := u.me.bank_advance_band gs
    rw [← hix] at hbank ⊢
    rw [State.bk, hme]
    exact hbank
  obtain ⟨hrest, hothers, hcolumn, hentry, hbanks, hbank⟩ := h
  rw [hme] at hcolumn hentry hbanks hbank
  rw [hbk] at hbank
  constructor
  case rest => exact hrest
  case others => exact fun p hp => (hothers p hp).trans (u.col_modMe_ne _ hp)
  case column => exact hcolumn
  case entry => exact hentry
  case banks => exact fun b hb => (hbanks b hb).trans (u.me.bank_advance_ne gs (hix ▸ hb))
  case bank => exact hbank

/-! ## The reads of tile counts (R122, R461 to R463) change no column -/

/-- The columns and the one at work are the same in both states. -/
def State.SameColumns (s t : State) : Prop := t.cols = s.cols ∧ t.cur = s.cur

theorem State.SameColumns.refl (s : State) : s.SameColumns s := ⟨rfl, rfl⟩

theorem State.SameColumns.trans {s t u : State} (h : s.SameColumns t) (k : t.SameColumns u) : s.SameColumns u :=
  ⟨k.1.trans h.1, k.2.trans h.2⟩

theorem State.SameColumns.me {s t : State} (h : s.SameColumns t) : t.me = s.me := by
  rw [State.me, State.me, State.col, State.col, h.1, h.2]

/-- Steps that each keep the columns keep them one after the other. -/
theorem State.SameColumns.foldl {α : Type} {f : State → α → State} (hf : ∀ (s : State) (x : α), s.SameColumns (f s x)) (s : State)
    (l : List α) : s.SameColumns (l.foldl f s) := by
  induction l generalizing s with
  | nil => exact .refl s
  | cons x l ih => exact (hf s x).trans (ih (f s x))

theorem State.sameColumns_journal (s : State) (type cause col : Nat) (exh : Bool) (v : Word) :
    s.SameColumns (s.journal type cause col exh v) := by
  unfold State.journal
  dsimp only
  split
  · exact ⟨rfl, rfl⟩
  · exact ⟨rfl, rfl⟩

theorem State.sameColumns_rollCall (s : State) (source col code : Nat) : s.SameColumns (s.rollCall source col code) := by
  unfold State.rollCall
  split
  · exact .refl s
  · split
    · exact State.sameColumns_journal _ _ _ _ _ _
    · exact .refl s

theorem State.sameColumns_matchCause (s : State) (cause col : Nat) : s.SameColumns (s.matchCause cause col) := by
  unfold State.matchCause
  split
  · exact .refl s
  · split
    · exact .refl s
    · split
      · exact s.sameColumns_rollCall _ _ _
      · split
        · exact ⟨rfl, rfl⟩
        · exact .refl s
      · exact .refl s

theorem State.sameColumns_report (s : State) (f : FaultRec) : s.SameColumns (s.report f) :=
  State.sameColumns_matchCause { s with notices := s.notices ++ [f] } f.cause f.col

theorem State.sameColumns_reportBoth (s : State) (cause col : Nat) (v tmsg : Word) (tepc : Nat) :
    s.SameColumns (s.reportBoth cause col v tmsg tepc) :=
  (State.sameColumns_report s _).trans (State.sameColumns_journal _ _ _ _ _ _)

theorem State.sameColumns_stackWordErr (s : State) (p w : Nat) : s.SameColumns (s.stackWordErr p w) := by
  unfold State.stackWordErr
  dsimp only
  split
  · split
    · split
      · exact ⟨rfl, rfl⟩
      · exact ⟨rfl, rfl⟩
    · exact ⟨rfl, rfl⟩
  · split
    · split
      · exact ⟨rfl, rfl⟩
      · exact ⟨rfl, rfl⟩
    · exact .refl s

theorem State.sameColumns_bAccount (s : State) (p : Nat) (tmsg : Word) (tepc acc hn t rows : Nat) (b : BRead) :
    s.SameColumns (s.bAccount p tmsg tepc acc hn t rows b) := by
  have herrs : s.SameColumns (s.stackErrs p b.at_ b.len) :=
    .foldl (fun s w => s.sameColumns_stackWordErr p w) s _
  refine .trans ?_ (.foldl (fun s k => s.sameColumns_reportBoth _ _ _ _ _) _ b.causes)
  split
  · exact herrs.trans (State.sameColumns_journal _ _ _ _ _ _)
  · exact herrs

theorem State.sameColumns_countWords (s : State) (acc : Nat) (gs : List MGroup) : s.SameColumns (s.countWords acc gs) := by
  refine .foldl (fun s g => ?_) s gs
  dsimp only
  split
  · exact s.sameColumns_bAccount _ _ _ _ _ _ _ _
  · exact .refl s

/-! ## The tile check (R283) and the registers a command waits for -/

theorem State.onTile_of_declared {s : State} {t : BitVec 3} (k : Out) (hin : s.me.inTrap = false)
    (hacc : bitN (s.fire.elim 0 (·.ent.acc)) t.toNat = true) : s.onTile t k = k := by
  simp only [State.onTile, hin, hacc, Bool.not_false, Bool.and_self, if_true]

theorem State.onTile_of_undeclared {s : State} {t : BitVec 3} (k : Out)
    (h : s.me.inTrap = true ∨ bitN (s.fire.elim 0 (·.ent.acc)) t.toNat = false) :
    s.onTile t k = s.trap 0x080 (w64 t.toNat) := by
  have hfalse : (!s.me.inTrap && bitN (s.fire.elim 0 (·.ent.acc)) t.toNat) = false := by
    rcases h with h | h <;> simp only [h, Bool.not_true, Bool.false_and, Bool.and_false]
  rw [State.onTile, hfalse, if_neg Bool.false_ne_true]

theorem State.onTile_of_tileReady {s : State} {t : BitVec 3} (k : Out) (h : s.tileReady t) : s.onTile t k = k :=
  State.onTile_of_declared k h.1 h.2.1

/-- A command that passes its checks on a ready tile enters the queue. -/
theorem State.enters_of_tileReady {s : State} {t : BitVec 3} {op : MOp} {dst : Option Reg} {o : Out} (h : s.tileReady t)
    (ho : o = s.onTile t (s.enqueueM op dst)) : s.Enters op dst o :=
  State.enters_of_room h.2.2 (ho.trans (State.onTile_of_tileReady _ h))

theorem State.ready_of_subset {s : State} {rs qs : List Reg} (h : s.ready rs = true) (hq : qs ⊆ rs) : s.ready qs = true :=
  List.all_eq_true.2 fun r hr => List.all_eq_true.1 h r (hq hr)

/-- MRD.STAT names no X register: x0 stands for it, which is never pending and reads 0. -/
theorem State.ready_x0 {s : State} {r : Reg} (h : s.ready [r] = true) : s.ready [.x 0, r] = true := by
  rw [State.ready, List.all_cons]
  exact Bool.and_eq_true_iff.2 ⟨rfl, h⟩

/-! ## Each command once its registers are ready -/

section Ready
variable {s : State} {a b d v : BitVec 5}

theorem exec_mzero (s : State) (c : BitVec 3) (m : BitVec 1) :
    exec (.mzero c m) s = s.onTile c (s.enqueueM (.zero c.toNat (m == 1)) none) := rfl

theorem exec_mprom (s : State) (c : BitVec 3) :
    exec (.mprom c) s = s.onTile c (s.enqueueM (.prom c.toNat) none) := rfl

theorem exec_mrdW (hr : s.ready [.x b.toNat, .v v.toNat] = true) (c : BitVec 3) :
    exec (.mrdW c v b) s = s.onTile c (if s.me.modeOf c.toNat = true then s.trap 0x081 (w64 (c.toNat + 2 ^ 11))
      else s.enqueueM (.read c.toNat v.toNat (fieldW (s.X b) 4 0) (fieldW (s.X b) 6 5) 0 0 false) (some (.v v.toNat))) := by
  rw [show exec (.mrdW c v b) s = mrd 0 c v b false 0 s from rfl, mrd, s.need_of_ready _ _ hr]
  simp only [true_and]

/-- A read that converts, or reads raw or statistics, has no check of its own. -/
theorem mrd_of_ready (hr : s.ready [.x b.toNat, .v v.toNat] = true) {op : Nat} (hop : op ≠ 0) (c : BitVec 3) (sat : Bool)
    (m : Nat) : mrd op c v b sat m s = s.onTile c (s.enqueueM
      (.read c.toNat v.toNat (fieldW (s.X b) 4 0) (fieldW (s.X b) 6 5) op m sat) (some (.v v.toNat))) := by
  rw [mrd, s.need_of_ready _ _ hr, if_neg fun h => hop h.1]

theorem exec_mrdF32 (hr : s.ready [.x b.toNat, .v v.toNat] = true) (c : BitVec 3) (z : BitVec 1) (m : BitVec 3) :
    exec (.mrdF32 c v b z m) s = s.onTile c (s.enqueueM
      (.read c.toNat v.toNat (fieldW (s.X b) 4 0) (fieldW (s.X b) 6 5) 1 m.toNat (z == 1)) (some (.v v.toNat))) :=
  mrd_of_ready hr Nat.one_ne_zero c _ _

theorem exec_mrdBf16 (hr : s.ready [.x b.toNat, .v v.toNat] = true) (c : BitVec 3) (z : BitVec 1) (m : BitVec 3) :
    exec (.mrdBf16 c v b z m) s = s.onTile c (s.enqueueM
      (.read c.toNat v.toNat (fieldW (s.X b) 4 0) (fieldW (s.X b) 6 5) 2 m.toNat (z == 1)) (some (.v v.toNat))) :=
  mrd_of_ready hr (Nat.succ_ne_zero 1) c _ _

theorem exec_mrdRaw (hr : s.ready [.x b.toNat, .v v.toNat] = true) (c : BitVec 3) :
    exec (.mrdRaw c v b) s = s.onTile c (s.enqueueM
      (.read c.toNat v.toNat (fieldW (s.X b) 4 0) (fieldW (s.X b) 6 5) 3 0 false) (some (.v v.toNat))) :=
  mrd_of_ready hr (Nat.succ_ne_zero 2) c _ _

theorem exec_mrdStat (hr : s.ready [.v v.toNat] = true) (c : BitVec 3) :
    exec (.mrdStat c v) s = s.onTile c (s.enqueueM (.read c.toNat v.toNat 0 0 4 0 false) (some (.v v.toNat))) := by
  have hx0 (hi lo : Nat) : fieldW (s.X 0) hi lo = 0 := by simp [fieldW, State.X]
  have hmrd := mrd_of_ready (b := 0) (op := 4) (State.ready_x0 hr) (by decide) c false 0
  rwa [hx0, hx0] at hmrd

theorem exec_mma (hr : s.ready [.x a.toNat, .x b.toNat] = true) (c : BitVec 3) (g : BitVec 2) :
    exec (.mma c a b g) s = s.onTile c (s.mmaIssue c.toNat (s.X a) (s.X b) [(g.toNat, 0, 32)]) :=
  s.need_of_ready _ _ hr

theorem exec_mmag (hr : s.ready [.x a.toNat, .x b.toNat] = true) (c : BitVec 3) (g : BitVec 2) :
    exec (.mmag c a b g) s = s.onTile c (if 32 < (mmagCounts (s.X b) (g.toNat + 1)).foldl (· + ·) 0
      then s.trap 0x083 (w64 (fieldW (s.X b) 59 36))
      else s.mmaIssue c.toNat (s.X a) (s.X b) (mmagSpans (mmagCounts (s.X b) (g.toNat + 1)) 0 0)) :=
  s.need_of_ready _ _ hr

theorem exec_mst (s : State) (c : BitVec 3) (a b : BitVec 5) (e z : BitVec 1) (m : BitVec 3) :
    exec (.mst c a b e z m) s = execMst c a b e z m s := rfl
theorem exec_mscl (s : State) (c : BitVec 3) (a : BitVec 5) (r : BitVec 1) : exec (.mscl c a r) s = execMscl c a r s := rfl
theorem exec_seedx (s : State) (d a b : BitVec 5) : exec (.seedx d a b) s = execSeedx d a b s := rfl
theorem exec_seedfit (s : State) (d a b n : BitVec 5) : exec (.seedfit d a b n) s = execSeedfit d a b n s := rfl

/-! ## MST and MSCL (R294, R295) -/

theorem exec_mst_of_undeclared (hr : s.ready [.x a.toNat, .x b.toNat] = true) {c : BitVec 3}
    (h : s.me.inTrap = true ∨ bitN (s.fire.elim 0 (·.ent.acc)) c.toNat = false) (e z : BitVec 1) (m : BitVec 3) :
    exec (.mst c a b e z m) s = s.trap 0x080 (w64 c.toNat) := by
  rw [exec_mst, execMst, s.need_of_ready _ _ hr, State.onTile_of_undeclared _ h]

theorem exec_mst_of_bad_address (hr : s.ready [.x a.toNat, .x b.toNat] = true) {c : BitVec 3} (ht : s.tileReady c)
    {x : Nat × Word} (hx : mxAddr s.cur (s.X a) (ownWin (fun w => w != 0)) = .error x) (e z : BitVec 1) (m : BitVec 3) :
    exec (.mst c a b e z m) s = s.trap x.1 x.2 := by
  simp only [exec_mst, execMst, s.need_of_ready _ _ hr, State.onTile_of_tileReady _ ht, hx]

theorem exec_mst_of_checked (hr : s.ready [.x a.toNat, .x b.toNat] = true) {k : Acc} {e z : BitVec 1}
    (hk : mxAddr s.cur (s.X a) (ownWin (fun w => w != 0)) = .ok k) (hsat : z = 1 → winInt k.win = false)
    (hoff : k.off % winAlign k.win = 0) (hstride : fieldW (s.X b) 23 0 % winAlign k.win = 0)
    (hend : k.off + 31 * fieldW (s.X b) 23 0 + ceilDiv (32 * winBits k.win) 8 ≤ 2 ^ 20)
    (hscale : e = 1 → fieldW (s.X b) 43 24 % 4 = 0 ∧ fieldW (s.X b) 43 24 + 128 ≤ 2 ^ 20) (c : BitVec 3) (m : BitVec 3) :
    exec (.mst c a b e z m) s = s.onTile c (s.enqueueM (.store c.toNat k.off k.win (fieldW (s.X b) 23 0)
      (if e = 1 then some (fieldW (s.X b) 43 24) else none) (z == 1) m.toNat) none) := by
  have hsat' : ¬(z = 1#1 ∧ winInt k.win = true) := fun h => Bool.false_ne_true ((hsat h.1).symm.trans h.2)
  have halign : ¬(k.off % winAlign k.win ≠ 0 ∨ fieldW (s.X b) 23 0 % winAlign k.win ≠ 0) := fun h =>
    h.elim (· hoff) (· hstride)
  have halign' : ¬(e = 1#1 ∧ fieldW (s.X b) 43 24 % 4 ≠ 0) := fun h => h.2 (hscale h.1).1
  have hend' : ¬(e = 1#1 ∧ 2 ^ 20 < fieldW (s.X b) 43 24 + 128) := fun h => Nat.not_lt.2 (hscale h.1).2 h.2
  simp only [exec_mst, execMst, s.need_of_ready _ _ hr, hk, if_neg hsat', if_neg halign, if_neg (Nat.not_lt.2 hend),
    if_neg halign', if_neg hend']
  rfl

theorem exec_mscl_of_undeclared (hr : s.ready [.x a.toNat] = true) {c : BitVec 3}
    (h : s.me.inTrap = true ∨ bitN (s.fire.elim 0 (·.ent.acc)) c.toNat = false) (r : BitVec 1) :
    exec (.mscl c a r) s = s.trap 0x080 (w64 c.toNat) := by
  rw [exec_mscl, execMscl, s.need_of_ready _ _ hr, State.onTile_of_undeclared _ h]

theorem exec_mscl_of_bad_address (hr : s.ready [.x a.toNat] = true) {c : BitVec 3} (ht : s.tileReady c) {x : Nat × Word}
    (hx : mxAddr s.cur (s.X a) (fun k => !k.glob && (k.win == 0 || k.win == 14)) = .error x) (r : BitVec 1) :
    exec (.mscl c a r) s = s.trap x.1 x.2 := by
  simp only [exec_mscl, execMscl, s.need_of_ready _ _ hr, State.onTile_of_tileReady _ ht, hx]

theorem exec_mscl_of_checked (hr : s.ready [.x a.toNat] = true) {k : Acc}
    (hk : mxAddr s.cur (s.X a) (fun k => !k.glob && (k.win == 0 || k.win == 14)) = .ok k) (hoff : k.off % 4 = 0)
    (hend : k.off + 128 ≤ 2 ^ 20) (c : BitVec 3) (r : BitVec 1) :
    exec (.mscl c a r) s = s.onTile c (s.enqueueM (.scale c.toNat k.col k.off (r == 1)) none) := by
  simp only [exec_mscl, execMscl, s.need_of_ready _ _ hr, hk, if_neg (fun h : k.off % 4 ≠ 0 => h hoff), if_neg (Nat.not_lt.2 hend)]
  rfl

/-! ## SEEDX and SEEDFIT (R301, R302) -/

theorem exec_seedx_of_bad_address (hr : s.ready [.x a.toNat, .x b.toNat, .x d.toNat] = true) {x : Nat × Word}
    (hx : seedAddr s.cur (s.X a) (fun w => w == 0 || w == 11) (fun _ => 2048) = .error x) :
    exec (.seedx d a b) s = s.trap x.1 x.2 := by
  simp only [exec_seedx, execSeedx, s.need_of_ready _ _ hr, hx]

theorem exec_seedx_of_checked (hr : s.ready [.x a.toNat, .x b.toNat, .x d.toNat] = true) {k o : Acc}
    (hk : seedAddr s.cur (s.X a) (fun w => w == 0 || w == 11) (fun _ => 2048) = .ok k)
    (ho : seedAddr s.cur (s.X b) (fun w => w == 0) (fun _ => 64) = .ok o) :
    exec (.seedx d a b) s = s.enqueueM (.seedx d.toNat o.off k.off) (some (.x d.toNat)) := by
  simp only [exec_seedx, execSeedx, s.need_of_ready _ _ hr, hk, ho]

theorem exec_seedfit_of_bad_address (hr : s.ready [.x a.toNat, .x b.toNat, .x d.toNat] = true) {x : Nat × Word}
    (hx : seedAddr s.cur (s.X a) (fun w => w == 11 || w == 14) (fun c => if c.win = 11 then 2048 else 4096) = .error x)
    (v : BitVec 5) : exec (.seedfit d a b v) s = s.trap x.1 x.2 := by
  simp only [exec_seedfit, execSeedfit, s.need_of_ready _ _ hr, hx]

theorem exec_seedfit_of_checked (hr : s.ready [.x a.toNat, .x b.toNat, .x d.toNat] = true) {k o : Acc}
    (hk : seedAddr s.cur (s.X a) (fun w => w == 11 || w == 14) (fun c => if c.win = 11 then 2048 else 4096) = .ok k)
    (ho : seedAddr s.cur (s.X b) (fun w => w == 0) (fun _ => 64) = .ok o) (v : BitVec 5) :
    exec (.seedfit d a b v) s = s.enqueueM (.seedfit d.toNat k.off k.win o.off v.toNat) (some (.x d.toNat)) := by
  simp only [exec_seedfit, execSeedfit, s.need_of_ready _ _ hr, hk, ho]

end Ready

/-! ## MMA and MMAG (R285, R291, R292) -/

section Mma
variable {s : State} {t : Nat} {base ctl : Word} {spans : List (Nat × Nat × Nat)}

theorem State.mmaIssue_of_no_steps (h : fieldW ctl 15 0 = 0) :
    s.mmaIssue t base ctl spans = s.enqueueM (.mma t []) none := by
  simp only [State.mmaIssue, if_pos h]

theorem State.mmaIssue_of_bad_group (h : fieldW ctl 15 0 ≠ 0) {cause : Nat} {tval : Word}
    (hx : s.mmaGroups t base (fieldW ctl 15 0) (fieldW ctl 35 16) spans = .error (cause, tval)) :
    s.mmaIssue t base ctl spans = s.trap cause tval := by
  simp only [State.mmaIssue, if_neg h, hx]

theorem State.mmaIssue_of_checked (h : fieldW ctl 15 0 ≠ 0) {gs : List MGroup}
    (hgs : s.mmaGroups t base (fieldW ctl 15 0) (fieldW ctl 35 16) spans = .ok gs) (hroom : s.me.mq.length < 2) :
    s.mmaIssue t base ctl spans =
      ((s.countWords t gs).modMe (fun c => c.advance gs)).enqueueM (.mma t gs) none := by
  simp only [State.mmaIssue, if_neg h, hgs, if_neg (Nat.not_le.2 hroom)]

/-- The tile counts read and accounted for, the streams advanced, the command in the queue. -/
theorem State.mmaIssue_queues (h : fieldW ctl 15 0 ≠ 0) {gs : List MGroup}
    (hgs : s.mmaGroups t base (fieldW ctl 15 0) (fieldW ctl 35 16) spans = .ok gs) (hin : s.me.inTrap = false)
    (hroom : s.me.mq.length < 2) :
    ∃ r, s.mmaIssue t base ctl spans = .next r ∧ (s.countWords t gs).Queues (.mma t gs) none
      (((s.countWords t gs).me.advance gs).bank (s.countWords t gs).me.band).sagb r := by
  have hme : (s.countWords t gs).me = s.me := (s.sameColumns_countWords t gs).me
  have hroom' : ((s.countWords t gs).modMe (fun c => c.advance gs)).me.mq.length < 2 := by
    rwa [State.me_modMe, Column.advance_eq, hme]
  obtain ⟨r, hr, hq⟩ := State.enters_of_room (op := .mma t gs) (dst := none) hroom' rfl
  exact ⟨r, (State.mmaIssue_of_checked h hgs hroom).trans hr, hq.of_advanced (hme ▸ hin)⟩

end Mma

/-- What MMA and MMAG do on a ready tile: nothing to step, a group that fails its checks, or one command of checked
groups. -/
def State.IssuesMma (s : State) (t : Nat) (base ctl : Word) (spans : List (Nat × Nat × Nat)) (o : Out) : Prop :=
  let steps := fieldW ctl 15 0
  (steps = 0 → s.Enters (.mma t []) none o) ∧
  (steps ≠ 0 →
    (∀ gs, s.mmaGroups t base steps (fieldW ctl 35 16) spans = .ok gs →
      ∃ r, o = .next r ∧ (s.countWords t gs).Queues (.mma t gs) none
        (((s.countWords t gs).me.advance gs).bank (s.countWords t gs).me.band).sagb r) ∧
    (∀ cause tval, s.mmaGroups t base steps (fieldW ctl 35 16) spans = .error (cause, tval) → o = s.trap cause tval))

theorem State.issuesMma_of_onTile {s : State} {c : BitVec 3} (ht : s.tileReady c) {base ctl : Word}
    {spans : List (Nat × Nat × Nat)} {o : Out} (ho : o = s.onTile c (s.mmaIssue c.toNat base ctl spans)) :
    s.IssuesMma c.toNat base ctl spans o := by
  obtain ⟨hin, -, hroom⟩ := id ht
  rw [ho, State.onTile_of_tileReady _ ht]
  refine ⟨fun h => ?_, fun h => ⟨fun gs hgs => ?_, fun cause tval hx => ?_⟩⟩
  · exact State.enters_of_room hroom (State.mmaIssue_of_no_steps h)
  · exact State.mmaIssue_queues h hgs hin hroom
  · exact State.mmaIssue_of_bad_group h hx

/-- Settles O39: on a ready tile, command by command; SEEDX and SEEDFIT, which name no tile; an undeclared tile; and a full
queue. -/
theorem matrixIssue : Obligations.MatrixIssue := by
  unfold Obligations.MatrixIssue
  intro s c a b d v z e r m1 m g T queues row seg rdy
  refine ⟨fun ht => ⟨?mzero, ?mprom, fun hr => ⟨fun hint => ?mrdW, fun hfl => ?mrdWFloat, ?mrdF32, ?mrdBf16, ?mrdRaw⟩,
      fun hr => ?mrdStat, fun hr k hk hsat hoff hstride hend hscale => ?mst, fun hr x hx => ?mstBad,
      fun hr x hx => ?msclBad, fun hr k hk hoff hend => ?mscl,
      fun hr => ⟨?mma, fun htotal => ?mmag, fun htotal => ?mmagRows⟩⟩,
    fun hr hroom => ⟨fun x hx => ?seedxBad, fun x hx => ?seedfitBad, fun k o hk ho => ?seedx, fun k o hk ho => ?seedfit⟩,
    fun hr => ⟨fun hno => ?undeclared, fun hin hacc hfull => ?full⟩⟩
  case mzero => exact State.enters_of_tileReady ht (exec_mzero s c m1)
  case mprom => exact State.enters_of_tileReady ht (exec_mprom s c)
  case mrdW =>
    refine State.enters_of_tileReady ht ((exec_mrdW hr c).trans ?_)
    rw [if_neg (Bool.eq_false_iff.1 hint)]
  case mrdWFloat => rw [exec_mrdW hr, State.onTile_of_tileReady _ ht, if_pos hfl]
  case mrdF32 => exact State.enters_of_tileReady ht (exec_mrdF32 hr c z m)
  case mrdBf16 => exact State.enters_of_tileReady ht (exec_mrdBf16 hr c z m)
  case mrdRaw => exact State.enters_of_tileReady ht (exec_mrdRaw hr c)
  case mrdStat => exact State.enters_of_tileReady ht (exec_mrdStat hr c)
  case mst => exact State.enters_of_tileReady ht (exec_mst_of_checked hr hk hsat hoff hstride hend hscale c m)
  case mstBad => exact exec_mst_of_bad_address hr ht hx e z m
  case msclBad => exact exec_mscl_of_bad_address hr ht hx r
  case mscl => exact State.enters_of_tileReady ht (exec_mscl_of_checked hr hk hoff hend c r)
  case mma => exact State.issuesMma_of_onTile ht (exec_mma hr c g)
  case mmag =>
    refine State.issuesMma_of_onTile ht ((exec_mmag hr c g).trans ?_)
    rw [if_neg (Nat.not_lt.2 htotal)]
  case mmagRows => rw [exec_mmag hr, State.onTile_of_tileReady _ ht, if_pos htotal]
  case seedxBad => exact exec_seedx_of_bad_address hr hx
  case seedfitBad => exact exec_seedfit_of_bad_address hr hx v
  case seedx => exact State.enters_of_room hroom (exec_seedx_of_checked hr hk ho)
  case seedfit => exact State.enters_of_room hroom (exec_seedfit_of_checked hr hk ho v)
  all_goals
    have hab : s.ready [.x a.toNat, .x b.toNat] = true := State.ready_of_subset hr (by simp)
    have ha : s.ready [.x a.toNat] = true := State.ready_of_subset hr (by simp)
    have hbv : s.ready [.x b.toNat, .v v.toNat] = true := State.ready_of_subset hr (by simp)
    have hv : s.ready [.v v.toNat] = true := State.ready_of_subset hr (by simp)
    simp only [List.forall_mem_cons, List.not_mem_nil, false_implies, implies_true, and_true]
  case undeclared =>
    have htile (k : Out) : s.onTile c k = s.trap 0x080 (w64 c.toNat) := State.onTile_of_undeclared k hno
    exact ⟨htile _, htile _, (exec_mrdW hbv c).trans (htile _), (exec_mrdF32 hbv c z m).trans (htile _),
      (exec_mrdBf16 hbv c z m).trans (htile _), (exec_mrdRaw hbv c).trans (htile _), (exec_mrdStat hv c).trans (htile _),
      exec_mst_of_undeclared hab hno e z m, exec_mscl_of_undeclared ha hno r, (exec_mma hab c g).trans (htile _),
      (exec_mmag hab c g).trans (htile _)⟩
  case full =>
    have hstall (op : MOp) (dst : Option Reg) : s.onTile c (s.enqueueM op dst) = .next { s with last := .stalled } := by
      rw [State.onTile_of_declared _ hin hacc, State.enqueueM_of_full op dst hfull]
    exact ⟨hstall _ _, hstall _ _, (exec_mrdF32 hbv c z m).trans (hstall _ _), (exec_mrdBf16 hbv c z m).trans (hstall _ _),
      (exec_mrdRaw hbv c).trans (hstall _ _), (exec_mrdStat hv c).trans (hstall _ _)⟩

end Sys2Proof.Machine
end
